-- ==== Sys2Proof/Word.lean ====
section
/-! DEFINITION. The word types of the block (spec 00_scope.md section 4): `u32`, the raw sample, the decode key. -/

namespace Sys2Proof

/-- `u32`: phases, tuning words, operand ports (R42, R43). Bit 0 is the least significant; `+` is the spec's `+32`. -/
abbrev Word := BitVec 32

/-- A raw sample or table entry, `uRES` (R44). Ten bits carry both resolutions; with `RES = 8` the upper two are
zero in every state that meets the invariant (log entry 7). -/
abbrev Raw := BitVec 10

/-- The decode key `K = {rst, TOPO[1:0], cmd[1:0]}` (R46). -/
abbrev Key := BitVec 5

end Sys2Proof
end

