-- ==== Sys2Proof/Config.lean ====
section
/-! DEFINITION. What a build of the block fixes (R3, R4), the names of its channels, outputs and input ports (R4, R48), and
the free values of its registers where the spec gives them none (R24, R106, R112). -/

namespace Sys2Proof

/-- Parameter `RES` (R3): 8 or 10, and nothing else. -/
inductive Resolution where
  | res8
  | res10
deriving DecidableEq, Repr

/-- Parameter `TOPO` (R4). -/
inductive Topology where
  | single
  | dual
  | iq
  | threePhase
deriving DecidableEq, Repr

/-- The channels of R4: each is one tuning word and one accumulator. -/
inductive Chan where
  | A
  | B
deriving DecidableEq, Repr

/-- The outputs of R4, under the spec's names: `a` (SINGLE, DUAL), `b` (DUAL), `I`, `Q` (IQ), `U`, `V`, `W` (THREE_PHASE). -/
inductive OutName where
  | a
  | b
  | I
  | Q
  | U
  | V
  | W
deriving DecidableEq, Repr

/-- An output `(name, channel, offset)` of `OUT(TOPO)` (R4). -/
structure OutputSpec where
  name   : OutName
  chan   : Chan
  offset : Word
deriving DecidableEq, Repr

/-- The input ports of one step (R45, R48): `rst`, `cmd[1:0]` and the four operand ports. On an instance that is not DUAL
the ports `tw_b` and `ph_b` do not exist; no command of such an instance reads these two fields. -/
structure Ports where
  rst : Bool
  cmd : BitVec 2
  twA : Word
  phA : Word
  twB : Word
  phB : Word
deriving DecidableEq, Repr

namespace Config

/-- FREE VALUE (R24, R117): what the `n`-th draw, a RESET's or one after an UPDATE in UNCONFIGURED (R106), leaves in `tw[c]`. No body:
nothing can be proved of it. -/
opaque freeTw : Nat → Chan → Word

/-- FREE VALUE (R24, R117): what the `n`-th draw leaves in `acc[c]`, "any u32". -/
opaque freeAcc : Nat → Chan → Word

/-- FREE VALUE (R24, R117): the bits from which the `n`-th draw leaves "any value in 0..2^RES - 1" in `raw[o]`. -/
opaque freeRaw : Nat → OutName → Raw

/-- FREE VALUE (R24, R117): the bits from which the `n`-th draw leaves "any sRES value" in `smp[o]`. -/
opaque freeSmp : Nat → OutName → BitVec 10

/-- FREE VALUE (R106): whether the `n`-th draw after an UPDATE in UNCONFIGURED leaves `mode` RUNNING. -/
opaque freeRunning : Nat → Bool

/-- FREE VALUE (R106, R112): what the `n`-th draw after an UPDATE in UNCONFIGURED leaves in `ovalid`. -/
opaque freeOvalid : Nat → Bool

end Config

end Sys2Proof
end

