-- ==== Sys2Proof/Syntax.lean ====
section
/-! DEFINITION. The instructions: one constructor per row of spec/opcode_table.json. -/

namespace Sys2Proof

/-- The commands and the reset, one constructor per row of the opcode map (R47). Operands are whole `u32` words (R48). -/
inductive Instr where
  /-- RESET, `rst = 1` (R117). -/
  | reset
  /-- NOP, `cmd = 00` (R90). -/
  | nop
  /-- BEGIN.1CH (R84). -/
  | begin1ch (twA phA : Word)
  /-- UPDATE.1CH (R85). -/
  | update1ch
  /-- BEGIN.2CH (R87). -/
  | begin2ch (twA phA twB phB : Word)
  /-- UPDATE.2CH (R88). -/
  | update2ch
  /-- BEGIN.IQ (R92). -/
  | beginIq (twA phA : Word)
  /-- UPDATE.IQ (R93). -/
  | updateIq
  /-- BEGIN.3PH (R97). -/
  | begin3ph (twA phA : Word)
  /-- UPDATE.3PH (R98). -/
  | update3ph
  /-- The reserved code `cmd = 11` with `rst = 0` (R49). -/
  | reserved
deriving DecidableEq, Repr

end Sys2Proof
end

