-- ==== Sys2Proof/WellFormed.lean ====
section
/-! DEFINITION. Well-formedness of a command: it belongs to the block it is presented to (R46, R47). -/

namespace Sys2Proof

/-- Check 1: a command of one block is presented to an instance of that block's topology (R46: `TOPO` is a constant of the
instance, so no other block's key can be formed). RESET, NOP and the reserved code exist on all four (R47, column block). -/
def Instr.wellFormed (t : Topology) : Instr → Bool
  | .reset           => true
  | .nop             => true
  | .begin1ch _ _    => t = .single
  | .update1ch       => t = .single
  | .begin2ch _ _ _ _ => t = .dual
  | .update2ch       => t = .dual
  | .beginIq _ _     => t = .iq
  | .updateIq        => t = .iq
  | .begin3ph _ _    => t = .threePhase
  | .update3ph       => t = .threePhase
  | .reserved        => true

end Sys2Proof
end

