-- ==== Sys2Proof/Decode.lean ====
section
/-! DEFINITION. Decoding a step's key and operand ports, a transaction and a transaction word (R45 to R50), and after it the
encoder, written from the same rules. -/

namespace Sys2Proof

/-- The strap `TOPO[1:0]` (R8). -/
def Topology.code : Topology → BitVec 2
  | .single     => 0b00
  | .dual       => 0b01
  | .iq         => 0b10
  | .threePhase => 0b11

/-- The topology a strap value stands for (R8). -/
def Topology.ofCode (c : BitVec 2) : Topology :=
  if c = 0b00 then .single else if c = 0b01 then .dual else if c = 0b10 then .iq else .threePhase

/-- The strap `RES10` (R8). -/
def Resolution.strap : Resolution → Bool
  | .res8  => false
  | .res10 => true

/-- The resolution a strap value stands for (R8). -/
def Resolution.ofStrap : Bool → Resolution
  | false => .res8
  | true  => .res10

/-- `K = {rst, TOPO[1:0], cmd[1:0]}` (R46). -/
def makeKey (rst : Bool) (t : Topology) (cmd : BitVec 2) : Key :=
  BitVec.ofBool rst ++ t.code ++ cmd

/-- The opcode map (R47), row by row in the table's order; `a`, `p`, `b`, `q` are the operand ports, read by the rows
whose format has them (R48). The keys left over after the ten rows before it are those of the reserved row, `0xx11` (R49). -/
def decodeKey (k : Key) (a p b q : Word) : Instr :=
  if k &&& 0x10 = 0x10 then .reset
  else if k &&& 0x13 = 0x00 then .nop
  else if k = 0x01 then .begin1ch a p
  else if k = 0x02 then .update1ch
  else if k = 0x05 then .begin2ch a p b q
  else if k = 0x06 then .update2ch
  else if k = 0x09 then .beginIq a p
  else if k = 0x0A then .updateIq
  else if k = 0x0D then .begin3ph a p
  else if k = 0x0E then .update3ph
  else .reserved

/-- What a step of an instance of topology `t` is, given its input ports (R45, R46). -/
def decodePorts (t : Topology) (p : Ports) : Instr :=
  decodeKey (makeKey p.rst t p.cmd) p.twA p.phA p.twB p.phB

/-- The three formats of R48. -/
inductive Format where
  | C0
  | C1
  | C2
deriving DecidableEq, Repr

/-- The number of operand words of a format (R48). -/
def Format.operandCount : Format → Nat
  | .C0 => 0
  | .C1 => 2
  | .C2 => 4

/-- The width of a format's transaction word (R48): 5, 69 or 133 bits. -/
def Format.width (f : Format) : Nat := 5 + 32 * f.operandCount

/-- The format of each row (R47). -/
def Instr.format : Instr → Format
  | .reset           => .C0
  | .nop             => .C0
  | .begin1ch _ _    => .C1
  | .update1ch       => .C0
  | .begin2ch _ _ _ _ => .C2
  | .update2ch       => .C0
  | .beginIq _ _     => .C1
  | .updateIq        => .C0
  | .begin3ph _ _    => .C1
  | .update3ph       => .C0
  | .reserved        => .C0

/-- A transaction (R48): the key, then the operand words, high bits first. Notation for a step, not hardware. -/
structure Transaction where
  key      : Key
  operands : List Word
deriving DecidableEq, Repr

/-- Why a transaction or a transaction word is none (safe: a host function, no step of the machine asks). -/
inductive DecodeError where
  /-- The number of operand words is that of no format of R48. -/
  | noSuchFormat
  /-- The key's row has another format (R47). -/
  | formatMismatch
  /-- The width is none of 5, 69, 133 (R48). -/
  | noSuchWidth
  /-- The word has a bit set at or above its width. -/
  | bitsAboveWidth
deriving DecidableEq, Repr

/-- The instruction `i`, if its row has the format `f`. -/
def expectFormat (f : Format) (i : Instr) : Except DecodeError Instr :=
  if i.format = f then .ok i else .error .formatMismatch

/-- The instruction a transaction stands for (R47, R48). -/
def decode (x : Transaction) : Except DecodeError Instr :=
  match x.operands with
  | []           => expectFormat .C0 (decodeKey x.key 0 0 0 0)
  | [a, p]       => expectFormat .C1 (decodeKey x.key a p 0 0)
  | [a, p, b, q] => expectFormat .C2 (decodeKey x.key a p b q)
  | _            => .error .noSuchFormat

/-- Bits `31+lo .. lo` of a transaction word. -/
def wordAt (T lo : Nat) : Word := BitVec.ofNat 32 (T >>> lo)

/-- A transaction word `T` of `width` bits taken apart (R48): `{K}`, `{K, tw_a, ph_a}` or `{K, tw_a, ph_a, tw_b, ph_b}`. -/
def unpackWord (width T : Nat) : Except DecodeError Transaction :=
  if 2 ^ width ≤ T then .error .bitsAboveWidth
  else if width = 5 then .ok { key := BitVec.ofNat 5 T, operands := [] }
  else if width = 69 then .ok { key := BitVec.ofNat 5 (T >>> 64), operands := [wordAt T 32, wordAt T 0] }
  else if width = 133 then
    .ok { key := BitVec.ofNat 5 (T >>> 128), operands := [wordAt T 96, wordAt T 64, wordAt T 32, wordAt T 0] }
  else .error .noSuchWidth

/-- The instruction a transaction word stands for. -/
def decodeWord (width T : Nat) : Except DecodeError Instr :=
  match unpackWord width T with
  | .ok x    => decode x
  | .error e => .error e

/-! ### The encoder -/

/-- The transaction of `i` on an instance of topology `t` (R47, R48). Bits a row ignores are zero; the `TOPO` bits of RESET,
NOP and the reserved row are those of `t`. -/
def encode (t : Topology) : Instr → Transaction
  | .reset            => { key := makeKey true t 0b00, operands := [] }
  | .nop              => { key := makeKey false t 0b00, operands := [] }
  | .begin1ch a p     => { key := 0b00001, operands := [a, p] }
  | .update1ch        => { key := 0b00010, operands := [] }
  | .begin2ch a p b q => { key := 0b00101, operands := [a, p, b, q] }
  | .update2ch        => { key := 0b00110, operands := [] }
  | .beginIq a p      => { key := 0b01001, operands := [a, p] }
  | .updateIq         => { key := 0b01010, operands := [] }
  | .begin3ph a p     => { key := 0b01101, operands := [a, p] }
  | .update3ph        => { key := 0b01110, operands := [] }
  | .reserved         => { key := makeKey false t 0b11, operands := [] }

/-- The width of a transaction's word (R48). -/
def Transaction.width (x : Transaction) : Nat := 5 + 32 * x.operands.length

/-- A transaction packed into one word, key first (R48). -/
def Transaction.word (x : Transaction) : Nat :=
  x.operands.foldl (fun acc w => acc * 2 ^ 32 + w.toNat) x.key.toNat

/-- The port sample that presents `i` (R45, R48). Operand ports that `i` does not sample are zero. -/
def Instr.toPorts : Instr → Ports
  | .reset            => { rst := true,  cmd := 0b00, twA := 0, phA := 0, twB := 0, phB := 0 }
  | .nop              => { rst := false, cmd := 0b00, twA := 0, phA := 0, twB := 0, phB := 0 }
  | .begin1ch a p     => { rst := false, cmd := 0b01, twA := a, phA := p, twB := 0, phB := 0 }
  | .update1ch        => { rst := false, cmd := 0b10, twA := 0, phA := 0, twB := 0, phB := 0 }
  | .begin2ch a p b q => { rst := false, cmd := 0b01, twA := a, phA := p, twB := b, phB := q }
  | .update2ch        => { rst := false, cmd := 0b10, twA := 0, phA := 0, twB := 0, phB := 0 }
  | .beginIq a p      => { rst := false, cmd := 0b01, twA := a, phA := p, twB := 0, phB := 0 }
  | .updateIq         => { rst := false, cmd := 0b10, twA := 0, phA := 0, twB := 0, phB := 0 }
  | .begin3ph a p     => { rst := false, cmd := 0b01, twA := a, phA := p, twB := 0, phB := 0 }
  | .update3ph        => { rst := false, cmd := 0b10, twA := 0, phA := 0, twB := 0, phB := 0 }
  | .reserved         => { rst := false, cmd := 0b11, twA := 0, phA := 0, twB := 0, phB := 0 }

/-- The port sample of a driver that drives nothing: `cmd = 00`, idle (R90). -/
def Ports.idle : Ports := Instr.nop.toPorts

/-! ### Words numbered as spec/opcode_table.json numbers them

A row's `match`, `mask` and `fixed` number the bits of the first word, the key, from 0; the operand words follow in the order
of R48, each after the one before it. The key's five bits take one byte, so the widths in whole bytes are 8, 72 and 136
(log entry 8). -/

/-- The `TOPO` bits of a table word. -/
def tableTopology (w : Nat) : Topology := Topology.ofCode (BitVec.ofNat 2 (w >>> 2))

/-- The port sample of a table word: key in bits 4..0, then `tw_a`, `ph_a`, `tw_b`, `ph_b` from bit 8 on. -/
def tablePorts (w : Nat) : Ports :=
  { rst := w.testBit 4, cmd := BitVec.ofNat 2 w
    twA := wordAt w 8, phA := wordAt w 40, twB := wordAt w 72, phB := wordAt w 104 }

/-- The instruction the decoder reads from a table word of `nbits` bits; bits above `nbits` are zero, and bits 7..5 of the
first byte are no bits of the key, so a word that sets one is refused. -/
def decodeTableWord (nbits w : Nat) : Option Instr :=
  let v := w % 2 ^ nbits
  if v % 256 < 32 then some (decodePorts (tableTopology v) (tablePorts v)) else none

end Sys2Proof
end

