-- ==== Sys2Proof/Machine/State.lean ====
section
/-! DEFINITION. The state of one instance (R10), its build-time parameters, the stream of port samples still to be presented,
the reasons a step can stop, and the state after reset. -/

namespace Sys2Proof.Machine

/-- The lifecycle register `mode` (R11): 0 UNCONFIGURED, 1 RUNNING. -/
inductive Mode where
  | unconfigured
  | running
deriving DecidableEq, Repr

/-- One channel (R4): the tuning word `tw[c]` (R12) and the phase accumulator `acc[c]` (R13). -/
structure Channel where
  tw  : Word
  acc : Word
deriving DecidableEq, Repr

/-- The registers of one output: `raw[o]` (R14) and the signed sample `smp[o]` (R15), an integer as R10 types it (D14). -/
structure OutReg where
  raw : Raw
  smp : Int
deriving DecidableEq, Repr

/-- The table space `LUT` (R26) as (index, entry) pairs, one entry a cell. In the canonical form `Memory.wf` the indices rise
strictly and no listed entry equals what an unlisted index reads as (log entry 4). -/
abbrev Memory := List (Nat × Raw)

/-- One instance. The registers are those of R10 for all four topologies side by side; the instance has those of
`CH(topo)` and `OUT(topo)`, and no command of its topology touches the others (log entry 6). -/
structure State where
  /-- strap `TOPO` (R4, R8), a constant of the instance -/
  topo   : Topology
  /-- strap `RES10` (R3, R8), a constant of the instance -/
  res    : Resolution
  /-- the table (R5, R26), a parameter of the instance, never written (R27) -/
  lut    : Memory
  /-- `mode` (R11) -/
  mode   : Mode
  /-- `ovalid` (R16) -/
  ovalid : Bool
  /-- `tw[A]`, `acc[A]` -/
  chA    : Channel
  /-- `tw[B]`, `acc[B]` -/
  chB    : Channel
  /-- `raw[a]`, `smp[a]` -/
  outa   : OutReg
  /-- `raw[b]`, `smp[b]` -/
  outb   : OutReg
  /-- `raw[I]`, `smp[I]` -/
  outI   : OutReg
  /-- `raw[Q]`, `smp[Q]` -/
  outQ   : OutReg
  /-- `raw[U]`, `smp[U]` -/
  outU   : OutReg
  /-- `raw[V]`, `smp[V]` -/
  outV   : OutReg
  /-- `raw[W]`, `smp[W]` -/
  outW   : OutReg
  /-- the command stream still to come, the next port sample first (R34, R45); the model's own field (log entry 5) -/
  inputs : List Ports
  /-- how many times free values have been drawn; the model's own field (log entries 2, 15) -/
  draws  : Nat
deriving DecidableEq, Repr

/-- Where the machine stops with a fault. -/
inductive Fault where
  /-- Raised by UPDATE.1CH, UPDATE.2CH, UPDATE.IQ and UPDATE.3PH in `mode = UNCONFIGURED` (R106, R107): the spec gives that step
  no meaning. Safe: the model stops where the hardware goes on in an unspecified way; `Aftermath` says what is left of it (R112). -/
  | updateBeforeBegin
deriving DecidableEq, Repr

/-- Where the model declines. -/
inductive Refusal where
  /-- Raised by an arm of `exec` whose instruction has no meaning yet. Safe. No arm of this model raises it. -/
  | notModelled (mnemonic : String)
  /-- Raised by the reserved code `cmd = 11` with `rst = 0` (R49, R107). Safe. -/
  | reservedCommand
  /-- Raised by `step` and by `State.build` for a table that is no legal parameter (R5, R107): not buildable. Safe. -/
  | illegalParameter
  /-- Raised by the host-side converter for a negative product, an infinity or a not-a-number (R67, R107). Safe. -/
  | converterArgument
  /-- Raised by the trace runner for a malformed line (93_implementation_defined.md U10). Safe. -/
  | malformedTrace
deriving DecidableEq, Repr

/-- The state after reset (R24): `mode = UNCONFIGURED`, `ovalid = 0`. The data registers are unspecified; DESIGN CHOICE: zero
(log entry 1). The instance is the one of the all-zero straps with nothing listed in its table (log entries 3, 4). -/
def State.reset : State :=
  { topo := .single, res := .res8, lut := []
    mode := .unconfigured, ovalid := false
    chA := { tw := 0, acc := 0 }, chB := { tw := 0, acc := 0 }
    outa := { raw := 0, smp := 0 }, outb := { raw := 0, smp := 0 }
    outI := { raw := 0, smp := 0 }, outQ := { raw := 0, smp := 0 }
    outU := { raw := 0, smp := 0 }, outV := { raw := 0, smp := 0 }, outW := { raw := 0, smp := 0 }
    inputs := [], draws := 0 }

end Sys2Proof.Machine
end

