-- ==== Sys2Proof/Machine/Operands.lean ====
section
/-! DEFINITION. The constants of a resolution (R3), the phase offsets (R6), the channels and outputs of a topology (R4), and the
operand forms of the lookup: phase plus offset, index, signed sample, port code (R42, R44, R76, R78, R79). -/

namespace Sys2Proof

/-- `RES` as a number (R3). -/
def Resolution.bits : Resolution → Nat
  | .res8  => 8
  | .res10 => 10

/-- `N = 2^RES` (R3). -/
def Resolution.tableLength (r : Resolution) : Nat := 2 ^ r.bits

/-- `SHIFT = 32 - RES` (R3). -/
def Resolution.shift (r : Resolution) : Nat := 32 - r.bits

/-- `MID = 2^(RES-1) - 1` (R3). -/
def Resolution.mid (r : Resolution) : Nat := 2 ^ (r.bits - 1) - 1

/-- `RAWMAX = 2*MID` (R3). -/
def Resolution.rawMax (r : Resolution) : Nat := 2 * r.mid

/-- `OFF90 = 2^30` (R6). -/
def off90 : Word := 0x40000000

/-- `OFF120 = round(2^32/3)` (R6). -/
def off120 : Word := 0x55555555

/-- `OFF240 = round(2*2^32/3)` (R6). -/
def off240 : Word := 0xAAAAAAAB

/-- `CH(TOPO)` (R4). -/
def Topology.channels : Topology → List Chan
  | .single     => [.A]
  | .dual       => [.A, .B]
  | .iq         => [.A]
  | .threePhase => [.A]

/-- `OUT(TOPO)` (R4). -/
def Topology.outputs : Topology → List OutputSpec
  | .single     => [⟨.a, .A, 0⟩]
  | .dual       => [⟨.a, .A, 0⟩, ⟨.b, .B, 0⟩]
  | .iq         => [⟨.I, .A, 0⟩, ⟨.Q, .A, off90⟩]
  | .threePhase => [⟨.U, .A, 0⟩, ⟨.V, .A, off120⟩, ⟨.W, .A, off240⟩]

namespace Machine

/-- `withOffset(p, off) = p +32 off` (R78). -/
def withOffset (p off : Word) : Word := p + off

/-- `indexFor(p) = p >> SHIFT`, the top `RES` bits (R76). -/
def indexFor (r : Resolution) (p : Word) : Nat := (p >>> r.shift).toNat

/-- The fraction field `p[SHIFT-1:0]` (R42), kept in the accumulator and ignored by the lookup. -/
def fractionOf (r : Resolution) (p : Word) : Nat := p.toNat % 2 ^ r.shift

/-- `toSigned(raw) = raw - MID`, in the integers (R79). -/
def toSigned (r : Resolution) (raw : Raw) : Int := (raw.toNat : Int) - (r.mid : Int)

/-- `tc_RES(v)` (00_scope.md section 4), the code of a signed sample on its port (R44). -/
def portCode (r : Resolution) (v : Int) : BitVec r.bits := BitVec.ofInt r.bits v

/-- What an index that no cell lists reads as: `MID`, zero amplitude. DESIGN CHOICE (log entry 4). -/
def Memory.unlisted (r : Resolution) : Raw := BitVec.ofNat 10 r.mid

/-- The read primitive `LUT[i]` (R26, R77): one whole entry, no side effect. -/
def Memory.read (r : Resolution) : Memory → Nat → Raw
  | [], _ => Memory.unlisted r
  | (j, v) :: m, i => if j = i then v else Memory.read r m i

/-- Indices rise strictly. -/
def Memory.rising : Memory → Bool
  | [] => true
  | [_] => true
  | (i, _) :: (j, v) :: m => decide (i < j) && Memory.rising ((j, v) :: m)

/-- A cell of a legal table in canonical form: an index below `N`, an entry in `0..RAWMAX` (R5), not the unlisted value. -/
def Memory.cellLegal (r : Resolution) (c : Nat × Raw) : Bool :=
  decide (c.1 < r.tableLength) && decide (c.2.toNat ≤ r.rawMax) && decide (c.2 ≠ Memory.unlisted r)

/-- The table is a legal parameter (R5) in canonical form. -/
def Memory.wf (r : Resolution) (m : Memory) : Bool :=
  Memory.rising m && m.all (Memory.cellLegal r)

/-- The table with the entry at `i` supplied as `v`, when an instance is built (R119 (1)). No command does this (R27). Supplying
the unlisted value removes the cell. -/
def Memory.supply (r : Resolution) (i : Nat) (v : Raw) : Memory → Memory
  | [] => if v = Memory.unlisted r then [] else [(i, v)]
  | (j, w) :: m =>
    if i < j then (if v = Memory.unlisted r then (j, w) :: m else (i, v) :: (j, w) :: m)
    else if i = j then (if v = Memory.unlisted r then m else (i, v) :: m)
    else (j, w) :: Memory.supply r i v m

/-- The table whose entries from index `i` on are `l`, in canonical form. -/
def Memory.ofEntriesFrom (r : Resolution) : Nat → List Nat → Memory
  | _, [] => []
  | i, v :: l =>
    if BitVec.ofNat 10 v = Memory.unlisted r then Memory.ofEntriesFrom r (i + 1) l
    else (i, BitVec.ofNat 10 v) :: Memory.ofEntriesFrom r (i + 1) l

/-- The table given as R5 gives it, an "ordered sequence of N unsigned integers". -/
def Memory.ofEntries (r : Resolution) (l : List Nat) : Memory := Memory.ofEntriesFrom r 0 l

/-- The sequence is a legal parameter (R5): `N` entries, each in `0..RAWMAX`. -/
def entriesLegal (r : Resolution) (l : List Nat) : Bool :=
  decide (l.length = r.tableLength) && l.all (fun v => decide (v ≤ r.rawMax))

end Machine

end Sys2Proof
end

