-- ==== Sys2Proof/Machine/Flags.lean ====
section
/-! DEFINITION. The two flags of an instance, `mode` and `ovalid` (R11, R16), what writes them (R22) and what `mode` gates (R106).
There is no other flag: the carry out of an accumulator is recorded nowhere (R70, R74). -/

namespace Sys2Proof.Machine

/-- `mode <- RUNNING`, by BEGIN (R11). -/
def State.setRunning (s : State) : State := { s with mode := .running }

/-- `mode <- UNCONFIGURED`, by RESET only (R11). -/
def State.setUnconfigured (s : State) : State := { s with mode := .unconfigured }

/-- `ovalid <- 1`, by UPDATE (R16). -/
def State.setOvalid (s : State) : State := { s with ovalid := true }

/-- `ovalid <- 0`, by RESET only (R16). -/
def State.clearOvalid (s : State) : State := { s with ovalid := false }

/-- `require mode = RUNNING` (R91): what UPDATE does when running; otherwise it has no meaning (R106), fault
`UpdateBeforeBegin` (R107). -/
def State.whenRunning (s : State) (next : State) : Host.Outcome State Fault Refusal :=
  match s.mode with
  | .running      => .next next
  | .unconfigured => .fault .updateBeforeBegin

/-- The true sum of an ADVANCE reaches `2^32` (R74). Not an event the hardware signals: no meaning reads it. -/
def wraps (acc tw : Word) : Bool := decide (2 ^ 32 ≤ acc.toNat + tw.toNat)

/-- The 1-bit code of `mode` on its port (R11, R51). -/
def Mode.code : Mode → BitVec 1
  | .unconfigured => 0
  | .running      => 1

end Sys2Proof.Machine
end

