-- ==== Sys2Proof/Machine/Ops.lean ====
section
/-! DEFINITION. The named operations over the registers and the table: register access, the micro-operations PA.LOAD, PA.ADVANCE
(R69, R70) and SLE.LOOKUP (R80), what a reset leaves unspecified (R24, R117), the presented port sample (R45), building an
instance (R119). The hardware has no exception to take and none to return from (R103, R110, R112). -/

namespace Sys2Proof.Machine

/-! ### Registers, each under its own name (R17) -/

/-- The registers of channel `c`. -/
def State.chan (s : State) : Chan → Channel
  | .A => s.chA
  | .B => s.chB

/-- `tw[c]` (R12). -/
def State.tw (s : State) (c : Chan) : Word := (s.chan c).tw

/-- `acc[c]` (R13). -/
def State.acc (s : State) (c : Chan) : Word := (s.chan c).acc

/-- Write both registers of channel `c`. -/
def State.setChan (s : State) (c : Chan) (v : Channel) : State :=
  match c with
  | .A => { s with chA := v }
  | .B => { s with chB := v }

/-- The registers of output `o`. -/
def State.out (s : State) : OutName → OutReg
  | .a => s.outa
  | .b => s.outb
  | .I => s.outI
  | .Q => s.outQ
  | .U => s.outU
  | .V => s.outV
  | .W => s.outW

/-- `raw[o]` (R14). -/
def State.raw (s : State) (o : OutName) : Raw := (s.out o).raw

/-- `smp[o]` (R15). -/
def State.smp (s : State) (o : OutName) : Int := (s.out o).smp

/-- Write both registers of output `o`. -/
def State.setOut (s : State) (o : OutName) (v : OutReg) : State :=
  match o with
  | .a => { s with outa := v }
  | .b => { s with outb := v }
  | .I => { s with outI := v }
  | .Q => { s with outQ := v }
  | .U => { s with outU := v }
  | .V => { s with outV := v }
  | .W => { s with outW := v }

/-! ### The table -/

/-- `sampleAt(index) = LUT[index]` (R77). -/
def State.sampleAt (s : State) (i : Nat) : Raw := Memory.read s.res s.lut i

/-- The table is a legal parameter (R5). -/
def State.paramsLegal (s : State) : Bool := Memory.wf s.res s.lut

/-! ### Micro-operations -/

/-- `PA.LOAD(c, t, p)` (R69): `tw[c] <- t; acc[c] <- p`. -/
def State.paLoad (s : State) (c : Chan) (t p : Word) : State :=
  s.setChan c { tw := t, acc := p }

/-- `PA.ADVANCE(c)` (R70): `acc[c] <- acc[c] +32 tw[c]`; the carry is discarded, `tw[c]` unchanged. -/
def State.paAdvance (s : State) (c : Chan) : State :=
  s.setChan c { tw := s.tw c, acc := s.acc c + s.tw c }

/-- The raw sample the lookup finds for phase `p` (R76, R77). -/
def State.rawAt (s : State) (p : Word) : Raw := s.sampleAt (indexFor s.res p)

/-- `SLE.LOOKUP(o)` (R80) for `o = (name, c, off)`, from the accumulator as it stands. -/
def State.sleLookup (s : State) (o : OutputSpec) : State :=
  let raw := s.rawAt (withOffset (s.acc o.chan) o.offset)
  s.setOut o.name { raw := raw, smp := toSigned s.res raw }

/-! ### What reset leaves unspecified -/

/-- A `uRES` value made of free bits (R24: "any value in 0..2^RES - 1"). -/
def freeRawValue (r : Resolution) (bits : Raw) : Raw := BitVec.ofNat 10 (bits.toNat % 2 ^ r.bits)

/-- An `sRES` value made of free bits (R24: "any sRES value"). -/
def freeSmpValue (r : Resolution) (bits : BitVec 10) : Int := (BitVec.ofNat r.bits bits.toNat).toInt

/-- `tw[c]`, `acc[c]` become unspecified (R117). -/
def State.drawChan (s : State) (c : Chan) : State :=
  s.setChan c { tw := Config.freeTw s.draws c, acc := Config.freeAcc s.draws c }

/-- `raw[o]`, `smp[o]` become unspecified (R117). -/
def State.drawOut (s : State) (o : OutName) : State :=
  s.setOut o { raw := freeRawValue s.res (Config.freeRaw s.draws o), smp := freeSmpValue s.res (Config.freeSmp s.draws o) }

/-- Every data register of the instance becomes unspecified (R117), with values no other RESET has drawn. -/
def State.unspecify (s : State) : State :=
  let u := s.topo.outputs.foldl (fun u o => u.drawOut o.name) (s.topo.channels.foldl State.drawChan s)
  { u with draws := s.draws + 1 }

/-! ### The command port -/

/-- The port sample of this step (R45). With nothing left to present the host calls nothing, a NOP (R90; log entry 5). -/
def State.presented (s : State) : Ports := s.inputs.headD Ports.idle

/-- The sample of this step has been presented. -/
def State.consume (s : State) : State := { s with inputs := s.inputs.tail }

/-- The next port sample will be `p`, before those already queued. -/
def State.present (s : State) (p : Ports) : State := { s with inputs := p :: s.inputs }

/-! ### Building an instance -/

/-- An instance of topology `t` and resolution `r` with the table `entries`, after its reset (R119 (1), (2)); an illegal
table is refused (R5, R107). R24 leaves its `tw`, `acc`, `raw` and `smp` unspecified; DESIGN CHOICE: zero, as in `State.reset` (log
entry 1). -/
def State.build (t : Topology) (r : Resolution) (entries : List Nat) : Host.Outcome State Fault Refusal :=
  if entriesLegal r entries then
    .next { State.reset with topo := t, res := r, lut := Memory.ofEntries r entries }
  else .refused .illegalParameter

end Sys2Proof.Machine
end

