-- ==== Sys2Proof/Machine/Control.lean ====
section
/-! DEFINITION. RESET (R117) and the reserved code (R49), the same on every block. -/

namespace Sys2Proof.Machine

/-- RESET (R117): `mode` UNCONFIGURED, `ovalid` 0, every data register of the instance unspecified; the parameters are untouched. -/
def execReset (s : State) : Host.Outcome State Fault Refusal :=
  .next s.unspecify.setUnconfigured.clearOvalid

/-- `cmd = 11` with `rst = 0` (R49): no meaning; "A model refuses it"; not a NOP, not a fault the hardware reports. -/
def execReserved (_s : State) : Host.Outcome State Fault Refusal :=
  .refused .reservedCommand

end Sys2Proof.Machine
end

