-- ==== Sys2Proof/Machine/NcoDds.lean ====
section
/-! DEFINITION. The block nco_dds: BEGIN and UPDATE of the single-channel and dual-channel oscillators, and NOP (43_nco_dds.md). -/

namespace Sys2Proof.Machine

/-- NOP (R90): reads nothing, writes nothing, in either mode. -/
def execNop (s : State) : Host.Outcome State Fault Refusal := .next s

/-- BEGIN.1CH (R84). Legal in either mode; no output register and not `ovalid` is written. -/
def execBegin1ch (twA phA : Word) (s : State) : Host.Outcome State Fault Refusal :=
  .next (s.paLoad .A twA phA).setRunning

/-- UPDATE.1CH (R85): advance, then look up with the advanced accumulator. -/
def execUpdate1ch (s : State) : Host.Outcome State Fault Refusal :=
  s.whenRunning ((s.paAdvance .A).sleLookup ⟨.a, .A, 0⟩).setOvalid

/-- BEGIN.2CH (R87): both channels are loaded by the one command. -/
def execBegin2ch (twA phA twB phB : Word) (s : State) : Host.Outcome State Fault Refusal :=
  .next ((s.paLoad .A twA phA).paLoad .B twB phB).setRunning

/-- UPDATE.2CH (R88): both channels advance, both samples appear together. -/
def execUpdate2ch (s : State) : Host.Outcome State Fault Refusal :=
  s.whenRunning ((((s.paAdvance .A).paAdvance .B).sleLookup ⟨.a, .A, 0⟩).sleLookup ⟨.b, .B, 0⟩).setOvalid

end Sys2Proof.Machine
end

