-- ==== Sys2Proof/Machine/Quadrature.lean ====
section
/-! DEFINITION. The block quadrature_generator: BEGIN.IQ and UPDATE.IQ (44_quadrature_generator.md). -/

namespace Sys2Proof.Machine

/-- BEGIN.IQ (R92): one tuning word and one start phase, which set the I output. -/
def execBeginIq (twA phA : Word) (s : State) : Host.Outcome State Fault Refusal :=
  .next (s.paLoad .A twA phA).setRunning

/-- UPDATE.IQ (R93): I at the advanced accumulator, Q at the advanced accumulator `+32 OFF90`; the sum is not stored. -/
def execUpdateIq (s : State) : Host.Outcome State Fault Refusal :=
  s.whenRunning (((s.paAdvance .A).sleLookup ⟨.I, .A, 0⟩).sleLookup ⟨.Q, .A, off90⟩).setOvalid

end Sys2Proof.Machine
end

