-- ==== Sys2Proof/Machine/ThreePhase.lean ====
section
/-! DEFINITION. The block three_phase_generator: BEGIN.3PH and UPDATE.3PH (45_three_phase_generator.md). -/

namespace Sys2Proof.Machine

/-- BEGIN.3PH (R97): one tuning word and one start phase, which set the U output. -/
def execBegin3ph (twA phA : Word) (s : State) : Host.Outcome State Fault Refusal :=
  .next (s.paLoad .A twA phA).setRunning

/-- UPDATE.3PH (R98): U, V and W at the advanced accumulator `+32` 0, `OFF120` and `OFF240`, each offset added afresh. -/
def execUpdate3ph (s : State) : Host.Outcome State Fault Refusal :=
  s.whenRunning
    ((((s.paAdvance .A).sleLookup ⟨.U, .A, 0⟩).sleLookup ⟨.V, .A, off120⟩).sleLookup ⟨.W, .A, off240⟩).setOvalid

end Sys2Proof.Machine
end

