-- ==== Sys2Proof/Machine/Dispatch.lean ====
section
/-! DEFINITION. What each instruction does, one arm per row of the opcode table. -/

namespace Sys2Proof.Machine

def exec (i : Instr) (s : State) : Host.Outcome State Fault Refusal :=
  match i with
  | .reset => Sys2Proof.Machine.execReset s
  | .nop => Sys2Proof.Machine.execNop s
  | .begin1ch twA phA => Sys2Proof.Machine.execBegin1ch twA phA s
  | .update1ch => Sys2Proof.Machine.execUpdate1ch s
  | .begin2ch twA phA twB phB => Sys2Proof.Machine.execBegin2ch twA phA twB phB s
  | .update2ch => Sys2Proof.Machine.execUpdate2ch s
  | .beginIq twA phA => Sys2Proof.Machine.execBeginIq twA phA s
  | .updateIq => Sys2Proof.Machine.execUpdateIq s
  | .begin3ph twA phA => Sys2Proof.Machine.execBegin3ph twA phA s
  | .update3ph => Sys2Proof.Machine.execUpdate3ph s
  | .reserved => Sys2Proof.Machine.execReserved s

end Sys2Proof.Machine
end

