-- ==== Sys2Proof/Machine/Step.lean ====
section
/-! DEFINITION. One step of an instance (R45): the presented port sample is decoded with the instance's strap and performed. -/

namespace Sys2Proof.Machine

/-- One step (R45). An instance whose table is no legal parameter cannot be built and is refused (R107); that `step`
refuses a state that was not built, and one whose table is not in canonical form, is the model's choice (log entries 11, 4). -/
def step (s : State) : Host.Outcome State Fault Refusal :=
  if s.paramsLegal then exec (decodePorts s.topo s.presented) s.consume
  else .refused .illegalParameter

/-- `s` with the table word `w` presented next, on an instance of the topology the word's key names (R46: `TOPO` is a constant of
the instance; this is the instance of that block). Everything else stands as it was (log entry 5). -/
def State.withFetchWord (s : State) (nbits w : Nat) : State :=
  { s.present (tablePorts (w % 2 ^ nbits)) with topo := tableTopology (w % 2 ^ nbits) }

end Sys2Proof.Machine
end

