-- ==== Sys2Proof/Machine/Generic.lean ====
section
/-! DEFINITION. The generic form of BEGIN and UPDATE (R91), and which instruction is the BEGIN or the UPDATE of a topology (R53). The
meanings of the eight BEGIN and UPDATE rows are written out per rule elsewhere; this file is what R91 says they instantiate. -/

namespace Sys2Proof

/-- The operand ports of a BEGIN, per channel: `(tw_c, ph_c)` (R48). -/
def Ports.operandsOf (p : Ports) : Chan → Word × Word
  | .A => (p.twA, p.phA)
  | .B => (p.twB, p.phB)

end Sys2Proof

namespace Sys2Proof.Machine

/-- BEGIN in the generic form (R91). -/
def genericBegin (p : Ports) (s : State) : Host.Outcome State Fault Refusal :=
  .next (s.topo.channels.foldl (fun u c => u.paLoad c (p.operandsOf c).1 (p.operandsOf c).2) s).setRunning

/-- UPDATE in the generic form (R91). -/
def genericUpdate (s : State) : Host.Outcome State Fault Refusal :=
  s.whenRunning (s.topo.outputs.foldl State.sleLookup (s.topo.channels.foldl State.paAdvance s)).setOvalid

/-- The BEGIN of a topology, its operands taken from the ports (R53). -/
def beginOf (t : Topology) (p : Ports) : Instr :=
  match t with
  | .single     => .begin1ch p.twA p.phA
  | .dual       => .begin2ch p.twA p.phA p.twB p.phB
  | .iq         => .beginIq p.twA p.phA
  | .threePhase => .begin3ph p.twA p.phA

/-- The UPDATE of a topology (R53). -/
def updateOf : Topology → Instr
  | .single     => .update1ch
  | .dual       => .update2ch
  | .iq         => .updateIq
  | .threePhase => .update3ph

end Sys2Proof.Machine
end

