-- ==== Sys2Proof/Machine/Converter.lean ====
section
/-! DEFINITION. The host-side fixed-point converter (40_fixed_point_converter.md) and the pseudo-operation BEGINF (R54). No rule of
the hardware reads anything defined here. The functions are written once over an ordered field with a floor: at the reals with
`2π` they are the spec's exact ones, at the rationals they compute (log entry 9). -/

namespace Sys2Proof.Machine

/-- A host argument: a finite number, or one of the values R67 gives no meaning. -/
inductive HostArg (K : Type) where
  | finite (x : K)
  | infinite
  | notANumber

/-- The open parameter `FLOAT_EVAL` (R67): how the host evaluates the expressions under `round` and `floor`, and its value of 2π. -/
structure FloatEval (K : Type) where
  /-- `2^32 * frequency * sampleInterval` -/
  tuning     : K → K → K
  /-- `startPhase * 2^32 / (2π)` -/
  phaseUnits : K → K
  /-- `2π` -/
  twoPi      : K

/-- Exact evaluation, the default of `FLOAT_EVAL` (R67), given the value of 2π. -/
def FloatEval.exact {K : Type} [Field K] (twoPi : K) : FloatEval K :=
  { tuning := fun f t => 2 ^ 32 * f * t
    phaseUnits := fun x => x * 2 ^ 32 / twoPi
    twoPi := twoPi }

/-- `round(x)`: the nearest integer, a tie going away from zero (R62). -/
def roundHalfAway {K : Type} [Field K] [LinearOrder K] [FloorRing K] (x : K) : Int :=
  if 0 ≤ x then ⌊x + 1 / 2⌋ else ⌈x - 1 / 2⌉

/-- `v mod 2^32` as a word. -/
def wrapWord (v : Int) : Word := BitVec.ofInt 32 v

/-- `computeTuningWord(frequency, sampleInterval) = round(2^32 * frequency * sampleInterval) mod 2^32` (R61, R63). A negative
product, an infinity or a not-a-number is refused (R67). -/
def computeTuningWord {K : Type} [Field K] [LinearOrder K] [FloorRing K] (ev : FloatEval K) :
    HostArg K → HostArg K → Host.Outcome Word Fault Refusal
  | .finite f, .finite t =>
    if f * t < 0 then .refused .converterArgument else .next (wrapWord (roundHalfAway (ev.tuning f t)))
  | _, _ => .refused .converterArgument

/-- `computeInitialPhase(startPhase)` (R64 to R66): 0 outside `(0, 2π]`, else `floor(startPhase * 2^32 / (2π)) mod 2^32`. -/
def computeInitialPhase {K : Type} [Field K] [LinearOrder K] [FloorRing K] (ev : FloatEval K) :
    HostArg K → Host.Outcome Word Fault Refusal
  | .finite x => if x ≤ 0 ∨ ev.twoPi < x then .next 0 else .next (wrapWord ⌊ev.phaseUnits x⌋)
  | _ => .refused .converterArgument

/-- One channel's words, or the refusal of whichever argument has no meaning. -/
def convertChannel {K : Type} [Field K] [LinearOrder K] [FloorRing K] (ev : FloatEval K) (f phi t : HostArg K) :
    Host.Outcome (Word × Word) Fault Refusal :=
  match computeTuningWord ev f t, computeInitialPhase ev phi with
  | .next tw, .next ph => .next (tw, ph)
  | _, _ => .refused .converterArgument

/-- `BEGINF f, phi, T` on a SINGLE, IQ or THREE_PHASE instance (R54); on DUAL the form is malformed. -/
def expandBeginF {K : Type} [Field K] [LinearOrder K] [FloorRing K] (ev : FloatEval K) (t : Topology)
    (f phi interval : HostArg K) : Host.Outcome Instr Fault Refusal :=
  if t = .dual then .refused .malformedTrace
  else
    match convertChannel ev f phi interval with
    | .next (tw, ph) => .next (beginOf t { rst := false, cmd := 0b01, twA := tw, phA := ph, twB := 0, phB := 0 })
    | .fault e       => .fault e
    | .refused e     => .refused e

/-- `BEGINF f1, f2, phi1, phi2, T` on a DUAL instance, one sample interval for both channels (R54); elsewhere malformed. -/
def expandBeginF2 {K : Type} [Field K] [LinearOrder K] [FloorRing K] (ev : FloatEval K) (t : Topology)
    (f1 f2 phi1 phi2 interval : HostArg K) : Host.Outcome Instr Fault Refusal :=
  if t = .dual then
    match convertChannel ev f1 phi1 interval, convertChannel ev f2 phi2 interval with
    | .next (twA, phA), .next (twB, phB) => .next (.begin2ch twA phA twB phB)
    | _, _ => .refused .converterArgument
  else .refused .malformedTrace

end Sys2Proof.Machine
end

