-- ==== Sys2Proof/Machine/OutputPorts.lean ====
section
/-! DEFINITION. What a reader outside the block observes (R23, R36, R37): the output ports of R51, continuously driven. A read is a
function of one state, so it is whole, has no effect, and all ports read in one step belong to one state. -/

namespace Sys2Proof.Machine

/-- The output ports (R51). `tw[c]` has none (R23). -/
inductive PortName where
  | mode
  | ovalid
  | acc (c : Chan)
  | raw (o : OutName)
  | smp (o : OutName)
deriving DecidableEq, Repr

/-- What a port drives: its width and its bits, `raw` and `smp` in `RES` bits, `smp` in two's complement (R44, R51). -/
structure PortValue where
  width : Nat
  bits  : BitVec width
deriving DecidableEq, Repr

/-- The ports of an instance of topology `t`, in the order of R51's table. -/
def outputPorts (t : Topology) : List PortName :=
  [.mode, .ovalid] ++ t.channels.map .acc ++ t.outputs.flatMap (fun o => [.raw o.name, .smp o.name])

/-- The value a register drives on its port (R51). -/
def State.drive (s : State) : PortName → PortValue
  | .mode   => { width := 1, bits := s.mode.code }
  | .ovalid => { width := 1, bits := BitVec.ofBool s.ovalid }
  | .acc c  => { width := 32, bits := s.acc c }
  | .raw o  => { width := s.res.bits, bits := BitVec.ofNat s.res.bits (s.raw o).toNat }
  | .smp o  => { width := s.res.bits, bits := portCode s.res (s.smp o) }

/-- What a reader gets at a port: nothing, if the instance has no such port. -/
def State.readPort (s : State) (n : PortName) : Option PortValue :=
  if n ∈ outputPorts s.topo then some (s.drive n) else none

end Sys2Proof.Machine
end

