-- ==== Sys2Proof/Machine/Run.lean ====
section
/-! DEFINITION. Runs: the composition, in order, of the effects of a stream of commands (R34, R123). -/

namespace Sys2Proof.Machine

/-- The effect of a stream of commands, stopping at the first fault or refusal (R34). -/
def execAll : List Instr → State → Host.Outcome State Fault Refusal
  | [], s => .next s
  | i :: is, s =>
    match exec i s with
    | .next t    => execAll is t
    | .fault e   => .fault e
    | .refused e => .refused e

/-- `n` steps, stopping at the first fault or refusal. -/
def runSteps : Nat → State → Host.Outcome State Fault Refusal
  | 0, s => .next s
  | n + 1, s =>
    match step s with
    | .next t    => runSteps n t
    | .fault e   => .fault e
    | .refused e => .refused e

/-- A whole run (R123): every port sample the host has queued is presented; the end of the run is the end of the stream. -/
def runInputs (s : State) : Host.Outcome State Fault Refusal := runSteps s.inputs.length s

end Sys2Proof.Machine
end

