-- ==== Sys2Proof/Machine/System.lean ====
section
/-! DEFINITION. A system of instances (R38, R114): the product of their states, any one of which takes the next step. -/

namespace Sys2Proof.Machine

/-- The instances of a system, each at the point its own run has reached: a state, or the stop that ended it (log entry 14). -/
abbrev System := List (Host.Outcome State Fault Refusal)

/-- A step of an instance that still runs; one whose run has ended (R106, R107) stays where it stopped (log entry 14). -/
def advance : Host.Outcome State Fault Refusal → Host.Outcome State Fault Refusal
  | .next s    => step s
  | .fault e   => .fault e
  | .refused e => .refused e

/-- The system of instances in the states given. -/
def System.of (states : List State) : System := states.map .next

/-- Instance `k` takes a step; the others stand as they were, whatever comes of that step (R38). A number that names no instance
presents nothing to anyone. -/
def stepInstance (k : Nat) (sys : System) : System := sys.modify k advance

/-- The instances named in `order` step one after the other: one interleaving of the instances' streams. -/
def stepInstances : List Nat → System → System
  | [], sys => sys
  | k :: ks, sys => stepInstances ks (stepInstance k sys)

end Sys2Proof.Machine
end

