-- ==== Sys2Proof/Machine/Trace.lean ====
section
/-! DEFINITION. The trace syntax (R53), the pseudo-operation `UPDATE n` (R54), and the text of a transaction (R48). Host-side notation:
a trace becomes the stream of port samples an instance is given. -/

namespace Sys2Proof.Machine

/-- One line of a trace (R53), `UPDATE n` of R54 among them. -/
inductive TraceStep where
  | reset
  | nop
  | update
  | updates (n : Nat)
  | begin1 (tw ph : Word)
  | begin2 (twa pha twb phb : Word)
deriving DecidableEq, Repr

/-- The head of a trace (R53). -/
structure TraceHeader where
  topo : Topology
  res  : Resolution
  lut  : Option (List Char)
deriving DecidableEq, Repr

/-- The instructions a line stands for on an instance of topology `t` (R53, R54); a BEGIN with the operands of another topology
is malformed (U10). -/
def TraceStep.instrs (t : Topology) : TraceStep → Option (List Instr)
  | .reset      => some [.reset]
  | .nop        => some [.nop]
  | .update     => some [updateOf t]
  | .updates n  => some (List.replicate n (updateOf t))
  | .begin1 w p =>
    if t = .dual then none else some [beginOf t { rst := false, cmd := 0b01, twA := w, phA := p, twB := 0, phB := 0 }]
  | .begin2 w p v q => if t = .dual then some [.begin2ch w p v q] else none

/-- The port samples of a whole trace, or none if a line is malformed. -/
def traceSamples (t : Topology) : List TraceStep → Option (List Ports)
  | [] => some []
  | l :: ls =>
    match l.instrs t, traceSamples t ls with
    | some is, some rest => some (is.map Instr.toPorts ++ rest)
    | _, _ => none

/-! ### Characters to lines

A token is a run of characters between blanks; a comma is a token of its own; `;` ends the line (log entry 10). -/

/-- The token being read, if any character of it has been read. -/
def flushToken (cur : List Char) : List (List Char) := if cur = [] then [] else [cur.reverse]

/-- The tokens of a line; `cur` is the token being read, last character first. -/
def lexLine : List Char → List Char → List (List Char)
  | [], cur => flushToken cur
  | c :: cs, cur =>
    if c = ';' then flushToken cur
    else if c = ' ' ∨ c = '\t' then flushToken cur ++ lexLine cs []
    else if c = ',' then flushToken cur ++ [','] :: lexLine cs []
    else lexLine cs (c :: cur)

/-- The value of a digit, hexadecimal ones included. -/
def digitValue (c : Char) : Option Nat :=
  if '0' ≤ c ∧ c ≤ '9' then some (c.toNat - 48)
  else if 'A' ≤ c ∧ c ≤ 'F' then some (c.toNat - 55)
  else if 'a' ≤ c ∧ c ≤ 'f' then some (c.toNat - 87)
  else none

/-- The number whose digits in `base` are `cs`, read on after `acc`. -/
def digitsValue (base : Nat) : List Char → Nat → Option Nat
  | [], acc => some acc
  | c :: cs, acc =>
    match digitValue c with
    | some d => if d < base then digitsValue base cs (acc * base + d) else none
    | none   => none

/-- A number of a trace, "decimal or 0x hexadecimal" (R53). -/
def parseNumber (cs : List Char) : Option Nat :=
  match cs with
  | '0' :: 'x' :: d :: ds => digitsValue 16 (d :: ds) 0
  | d :: ds => digitsValue 10 (d :: ds) 0
  | [] => none

/-- A `u32` value of a trace. -/
def parseU32 (cs : List Char) : Option Word :=
  match parseNumber cs with
  | some n => if n < 2 ^ 32 then some (BitVec.ofNat 32 n) else none
  | none   => none

/-- What follows the key `key` in the token `tok`. -/
def afterKey : List Char → List Char → Option (List Char)
  | [], tok => some tok
  | k :: ks, c :: cs => if k = c then afterKey ks cs else none
  | _ :: _, [] => none

/-- The `u32` bound by the token `key` followed by a number. -/
def parseBinding (key tok : List Char) : Option Word :=
  match afterKey key tok with
  | some cs => parseU32 cs
  | none    => none

/-- One line (R53). -/
def parseTokens : List (List Char) → Option TraceStep
  | [w] =>
    if w = "RESET".toList then some .reset
    else if w = "NOP".toList then some .nop
    else if w = "UPDATE".toList then some .update
    else none
  | [w, n] => if w = "UPDATE".toList then (parseNumber n).map .updates else none
  | [w, x, c, y] =>
    if w = "BEGIN".toList ∧ c = [','] then
      match parseBinding "tw=".toList x, parseBinding "ph=".toList y with
      | some t, some p => some (.begin1 t p)
      | _, _ => none
    else none
  | [w, x, c, y, c', x', c'', y'] =>
    if w = "BEGIN".toList ∧ c = [','] ∧ c' = [','] ∧ c'' = [','] then
      match parseBinding "twa=".toList x, parseBinding "pha=".toList y,
            parseBinding "twb=".toList x', parseBinding "phb=".toList y' with
      | some t, some p, some t', some p' => some (.begin2 t p t' p')
      | _, _, _, _ => none
    else none
  | _ => none

/-- One line of text (R53). -/
def parseLine (line : List Char) : Option TraceStep := parseTokens (lexLine line [])

/-- The lines of text. -/
def parseLines : List (List Char) → Option (List TraceStep)
  | [] => some []
  | l :: ls =>
    match parseLine l, parseLines ls with
    | some x, some xs => some (x :: xs)
    | _, _ => none

/-- `topo` of R53's grammar. -/
def parseTopology (cs : List Char) : Option Topology :=
  if cs = "SINGLE".toList then some .single
  else if cs = "DUAL".toList then some .dual
  else if cs = "IQ".toList then some .iq
  else if cs = "THREE_PHASE".toList then some .threePhase
  else none

/-- `8` or `10` (R53). -/
def parseResolution (cs : List Char) : Option Resolution :=
  if cs = "8".toList then some .res8 else if cs = "10".toList then some .res10 else none

/-- `INSTANCE`, `TOPO=`, `RES=` of a header; `lut` is the name its `LUT=` gave, if it has one. -/
def headerOf (w t r : List Char) (lut : Option (List Char)) : Option TraceHeader :=
  if w = "INSTANCE".toList then
    match (afterKey "TOPO=".toList t).bind parseTopology, (afterKey "RES=".toList r).bind parseResolution with
    | some topo, some res => some { topo := topo, res := res, lut := lut }
    | _, _ => none
  else none

/-- The header of a trace (R53). The spec does not say what a `name` is; DESIGN CHOICE: whatever is left of its token after `LUT=`, the
empty name included (log entry 10). -/
def parseHeader (line : List Char) : Option TraceHeader :=
  match lexLine line [] with
  | [w, t, r]    => headerOf w t r none
  | [w, t, r, l] => (afterKey "LUT=".toList l).bind (fun name => headerOf w t r (some name))
  | _            => none

/-- The instance a trace is for, with the trace's port samples queued. `entries` is the table the caller supplies under the
header's name; an illegal table is refused (R107), a malformed line rejected (U10). The instance is `State.build`'s, its
unspecified registers zero (log entry 1). -/
def loadTrace (entries : List Nat) (h : TraceHeader) (ls : List TraceStep) : Host.Outcome State Fault Refusal :=
  match traceSamples h.topo ls with
  | none    => .refused .malformedTrace
  | some ps =>
    match State.build h.topo h.res entries with
    | .next s    => .next { s with inputs := ps }
    | .fault e   => .fault e
    | .refused e => .refused e

/-- A trace given as text, its header line first (R53). -/
def loadText (entries : List Nat) : List (List Char) → Host.Outcome State Fault Refusal
  | [] => .refused .malformedTrace
  | head :: lines =>
    match parseHeader head, parseLines lines with
    | some h, some ls => loadTrace entries h ls
    | _, _ => .refused .malformedTrace

/-! ### The text of a transaction -/

/-- One hexadecimal digit, upper case as in R48's example. -/
def hexDigit (n : Nat) : Char := if n < 10 then Char.ofNat (48 + n) else Char.ofNat (55 + n)

/-- The `len` digits of `n` in base `2^k`, most significant first. -/
def digitText (k : Nat) : Nat → Nat → List Char
  | 0, _ => []
  | len + 1, n => hexDigit (n / 2 ^ (k * len) % 2 ^ k) :: digitText k len n

end Sys2Proof.Machine

namespace Sys2Proof

/-- A transaction in text (R48): "the key in binary, then the operand words in hexadecimal, separated by `:`". -/
def Transaction.text (x : Transaction) : List Char :=
  Machine.digitText 1 5 x.key.toNat ++ x.operands.flatMap (fun w => ':' :: Machine.digitText 4 8 w.toNat)

end Sys2Proof
end

