-- ==== Sys2Proof/Safety.lean ====
section
/-! DEFINITION. The terms claims are stated in: which commands are BEGINs and UPDATEs, the invariants of R25, steady streams of
ticks (R72), the period of a tuning word (R73), and when one instance behaves as a channel of another (R89, R96). -/

namespace Sys2Proof

/-- The four BEGIN rows. -/
def Instr.isBegin : Instr → Bool
  | .begin1ch _ _     => true
  | .begin2ch _ _ _ _ => true
  | .beginIq _ _      => true
  | .begin3ph _ _     => true
  | _                 => false

/-- The four UPDATE rows. -/
def Instr.isUpdate : Instr → Bool
  | .update1ch => true
  | .update2ch => true
  | .updateIq  => true
  | .update3ph => true
  | _          => false

/-- The latest command other than NOP of a stream (R25), NOP if there is none. -/
def latestCommand (is : List Instr) : Instr := is.foldl (fun l i => if i = .nop then l else i) .nop

/-- A stream of ticks with NOPs interleaved, no BEGIN and no reset (R72). -/
def steady (t : Topology) (is : List Instr) : Prop := ∀ i ∈ is, i = .nop ∨ i = Machine.updateOf t

/-- The number of ticks in a steady stream. -/
def ticks (t : Topology) (is : List Instr) : Nat := is.count (Machine.updateOf t)

/-- `P(t) = 2^32 / gcd(2^32, t)` (R73). -/
def phasePeriod (t : Word) : Nat := 2 ^ 32 / Nat.gcd (2 ^ 32) t.toNat

namespace Machine

/-- The registers of the instance's outputs hold values of their types: `raw` in `0..2^RES - 1`, `smp` an `sRES` value. -/
def State.widthsHold (s : State) : Prop :=
  ∀ o ∈ s.topo.outputs,
    (s.raw o.name).toNat < 2 ^ s.res.bits ∧
    -(2 : Int) ^ (s.res.bits - 1) ≤ s.smp o.name ∧ s.smp o.name < (2 : Int) ^ (s.res.bits - 1)

/-- R25 (b): once `ovalid` is set the instance runs, and every output holds a table value and that value less `MID`. -/
def State.samplesValid (s : State) : Prop :=
  s.ovalid = true → s.mode = .running ∧
    ∀ o ∈ s.topo.outputs,
      (s.raw o.name).toNat ≤ s.res.rawMax ∧ s.smp o.name = ((s.raw o.name).toNat : Int) - (s.res.mid : Int)

/-- The invariant of an instance (R5, R25 (a) and (b)). The words of R25 (a) are in range by their type. -/
def State.Inv (s : State) : Prop :=
  s.paramsLegal = true ∧ s.widthsHold ∧ s.samplesValid

/-- R25 (c): every output is the table entry of the current accumulator plus its offset. -/
def State.outputsCurrent (s : State) : Prop :=
  ∀ o ∈ s.topo.outputs,
    s.raw o.name = Memory.read s.res s.lut ((s.acc o.chan + o.offset).toNat / 2 ^ s.res.shift)

/-- The parameters of two states are the same: one instance. -/
def State.sameParams (s t : State) : Prop := t.topo = s.topo ∧ t.res = s.res ∧ t.lut = s.lut

/-- The single-channel command that channel `c` of a DUAL instance receives when the instance receives `i` (R89). -/
def dualToSingle (c : Chan) : Instr → Instr
  | .begin2ch twA phA twB phB =>
    match c with
    | .A => .begin1ch twA phA
    | .B => .begin1ch twB phB
  | .update2ch => .update1ch
  | i => i

/-- The output of channel `c` of a DUAL instance (R4). -/
def dualOutput : Chan → OutName
  | .A => .a
  | .B => .b

/-- The SINGLE instance `s` stands as channel `c`, with its output, of the DUAL instance `d` (R89): same resolution, table and flags, and
the same registers as far as they hold a value (R16, R24). -/
def standsAs (c : Chan) (d s : State) : Prop :=
  d.topo = .dual ∧ s.topo = .single ∧ s.res = d.res ∧ s.lut = d.lut ∧ s.mode = d.mode ∧ s.ovalid = d.ovalid ∧
  (d.mode = .running → s.chA = d.chan c) ∧ (d.ovalid = true → s.outa = d.out (dualOutput c))

/-- The DUAL instance `d` is loaded as the IQ instance `s` is, its second phase a quarter circle ahead (R96). -/
def loadedAsIq (s d : State) : Prop :=
  s.topo = .iq ∧ d.topo = .dual ∧ d.res = s.res ∧ d.lut = s.lut ∧ s.mode = .running ∧ d.mode = .running ∧
  d.tw .A = s.tw .A ∧ d.acc .A = s.acc .A ∧ d.tw .B = s.tw .A ∧ d.acc .B = s.acc .A + off90

end Machine

end Sys2Proof
end

