-- ==== Sys2Proof/Certificates/Slice0/Obligations.lean ====
section
/-! DEFINITION. The statements for the provers. Each docstring names the rule of spec/ it formalises. -/

open Sys2Proof Sys2Proof.Machine

/-! ### Encoding -/

/-- R47: the opcode map, row by row, with each row's format and block. -/
def Obligations.OpcodeMapPartitionsKeys : Prop :=
  ∀ (k : Key) (a p b q : Word),
    (decodeKey k a p b q = .reset ↔ k &&& 0x10 = 0x10) ∧
    (decodeKey k a p b q = .nop ↔ k &&& 0x13 = 0x00) ∧
    (decodeKey k a p b q = .begin1ch a p ↔ k = 0x01) ∧
    (decodeKey k a p b q = .update1ch ↔ k = 0x02) ∧
    (decodeKey k a p b q = .begin2ch a p b q ↔ k = 0x05) ∧
    (decodeKey k a p b q = .update2ch ↔ k = 0x06) ∧
    (decodeKey k a p b q = .beginIq a p ↔ k = 0x09) ∧
    (decodeKey k a p b q = .updateIq ↔ k = 0x0A) ∧
    (decodeKey k a p b q = .begin3ph a p ↔ k = 0x0D) ∧
    (decodeKey k a p b q = .update3ph ↔ k = 0x0E) ∧
    (decodeKey k a p b q = .reserved ↔ k &&& 0x13 = 0x03) ∧
    ((decodeKey k a p b q).format = .C1 ↔ k = 0x01 ∨ k = 0x09 ∨ k = 0x0D) ∧
    ((decodeKey k a p b q).format = .C2 ↔ k = 0x05) ∧
    (∀ t : Topology, (decodeKey k a p b q).wellFormed t = true ↔
      k &&& 0x10 = 0x10 ∨ k &&& 0x13 = 0x00 ∨ k &&& 0x13 = 0x03 ∨ k &&& 0x0C = t.code.setWidth 5 <<< 2)

/-- Transaction words written out from R47 and R48, those of the spec's programs P1, P2, P3, P4 and P6 among them. -/
def Obligations.WrittenOutTransactionsDecode : Prop :=
  decodeWord 5 0b10000 = .ok .reset ∧
  decodeWord 5 0b11111 = .ok .reset ∧
  decodeWord 5 0b01100 = .ok .nop ∧
  decodeWord 69 0x11999999A00000000 = .ok (.begin1ch 0x1999999A 0x00000000) ∧
  decodeWord 5 0b00010 = .ok .update1ch ∧
  decodeWord 133 0x510000000000000003000000080000000 =
    .ok (.begin2ch 0x10000000 0x00000000 0x30000000 0x80000000) ∧
  decodeWord 5 0b00110 = .ok .update2ch ∧
  decodeWord 69 0x940000000C0000000 = .ok (.beginIq 0x40000000 0xC0000000) ∧
  decodeWord 5 0b01010 = .ok .updateIq ∧
  decodeWord 69 0xD2AAAAAAB80000000 = .ok (.begin3ph 0x2AAAAAAB 0x80000000) ∧
  decodeWord 5 0b01110 = .ok .update3ph ∧
  decodeWord 5 0b01011 = .ok .reserved

/-- R46: whatever is on the ports of an instance, what its step decodes to is a command of its own block. -/
def Obligations.PortsDecodeToOwnBlock : Prop :=
  ∀ (t : Topology) (p : Ports), (decodePorts t p).wellFormed t = true

/-- R47, R48: no bit of an encoding is dropped. The transaction word the encoder gives any instruction on any topology decodes to
it with every operand at every value, and so does its port sample on an instance of its block. -/
def Obligations.EncodedInstructionsDecodeBack : Prop :=
  ∀ (t : Topology) (i : Instr),
    decodeWord (encode t i).width (encode t i).word = .ok i ∧
    (i.wellFormed t = true → decodePorts t i.toPorts = i)

/-- R47, R48: the other direction. A transaction word that decodes is the encoder's word on some topology; for RESET, whose `TOPO`
and `cmd` bits are ignored, it is any five-bit word with `rst` set. -/
def Obligations.DecodedWordsEncodeBack : Prop :=
  ∀ (width T : Nat) (i : Instr), decodeWord width T = .ok i →
    (i ≠ .reset → ∃ t : Topology, i.wellFormed t = true ∧ (encode t i).width = width ∧ (encode t i).word = T) ∧
    (i = .reset → width = 5 ∧ 16 ≤ T ∧ T < 32)

/-! ### The step -/

/-- R45, R46: a step of a legal instance performs what its ports and its strap select, and the sample is used up; a sample that
presents a well-formed instruction `i` runs `i`; with nothing presented the step is a NOP (log entry 5); a table word that
decodes to `i` is run as `i`. -/
def Obligations.StepRunsPresentedInstruction : Prop :=
  ∀ s : State, s.paramsLegal = true →
    (∀ (p : Ports) (ps : List Ports), s.inputs = p :: ps → step s = exec (decodePorts s.topo p) { s with inputs := ps }) ∧
    (∀ (i : Instr) (ps : List Ports), i.wellFormed s.topo = true → s.inputs = i.toPorts :: ps →
      step s = exec i { s with inputs := ps }) ∧
    (s.inputs = [] → step s = .next s) ∧
    (∀ (nbits w : Nat) (i : Instr), decodeTableWord nbits w = some i →
      step (s.withFetchWord nbits w) = exec i { s with topo := tableTopology (w % 2 ^ nbits) })

/-- R34: the effect of a stream is the composition, in order, of the effects of its commands: running the queued port samples is
performing the commands one after the other, each writing all its registers before the next. -/
def Obligations.StreamIsCompositionOfCommands : Prop :=
  ∀ (is : List Instr) (s : State), s.paramsLegal = true → (∀ i ∈ is, i.wellFormed s.topo = true) →
    s.inputs = is.map Instr.toPorts → runInputs s = execAll is { s with inputs := [] }

/-- R118, R109: a step with `rst = 1` is RESET whatever `cmd` and the operand ports hold, the reserved code included; further RESETs
leave the flags, the parameters and the registers the instance does not have as the first left them. -/
def Obligations.ResetDominatesAndRepeats : Prop :=
  (∀ (s : State) (p : Ports) (ps : List Ports), s.paramsLegal = true → s.inputs = p :: ps → p.rst = true →
    step s = exec .reset { s with inputs := ps }) ∧
  (∀ (n : Nat) (s : State), ∃ t u : State,
    exec .reset s = .next t ∧ execAll (List.replicate (n + 1) .reset) s = .next u ∧
    u.mode = t.mode ∧ u.ovalid = t.ovalid ∧ t.sameParams u ∧
    (∀ c, c ∉ s.topo.channels → u.chan c = t.chan c) ∧
    (∀ o, o ∉ s.topo.outputs.map OutputSpec.name → u.out o = t.out o))

/-! ### What each command does -/

/-- R90: NOP reads nothing and writes nothing, in either mode; its operand ports are ignored. -/
def Obligations.NopLeavesStateUnchanged : Prop :=
  (∀ s : State, exec .nop s = .next s) ∧
  (∀ (t : Topology) (a p b q : Word),
    decodePorts t { rst := false, cmd := 0b00, twA := a, phA := p, twB := b, phB := q } = .nop)

/-- R84: BEGIN.1CH, from every state, with every operand. -/
def Obligations.BeginSingleLoadsChannel : Prop :=
  ∀ (s : State) (tw ph : Word),
    exec (.begin1ch tw ph) s = .next { s with chA := { tw := tw, acc := ph }, mode := .running } ∧
    ∀ b q : Word, decodeKey 0b00001 tw ph b q = .begin1ch tw ph

/-- R87: BEGIN.2CH loads both channels. -/
def Obligations.BeginDualLoadsBothChannels : Prop :=
  ∀ (s : State) (twA phA twB phB : Word),
    exec (.begin2ch twA phA twB phB) s =
      .next { s with chA := { tw := twA, acc := phA }, chB := { tw := twB, acc := phB }, mode := .running } ∧
    decodeKey 0b00101 twA phA twB phB = .begin2ch twA phA twB phB

/-- R92: BEGIN.IQ. -/
def Obligations.BeginIqLoadsChannel : Prop :=
  ∀ (s : State) (tw ph : Word),
    exec (.beginIq tw ph) s = .next { s with chA := { tw := tw, acc := ph }, mode := .running } ∧
    ∀ b q : Word, decodeKey 0b01001 tw ph b q = .beginIq tw ph

/-- R97: BEGIN.3PH. -/
def Obligations.BeginThreePhaseLoadsChannel : Prop :=
  ∀ (s : State) (tw ph : Word),
    exec (.begin3ph tw ph) s = .next { s with chA := { tw := tw, acc := ph }, mode := .running } ∧
    ∀ b q : Word, decodeKey 0b01101 tw ph b q = .begin3ph tw ph

/-- R85: UPDATE.1CH. In RUNNING the accumulator advances, the output is the table entry of the advanced accumulator's top bits and
that entry less `MID`, `ovalid` is set, nothing else changes; otherwise no meaning. -/
def Obligations.UpdateSingleAdvancesAndSamples : Prop :=
  ∀ s : State,
    let acc := s.chA.acc + s.chA.tw
    let raw := Memory.read s.res s.lut (acc.toNat / 2 ^ s.res.shift)
    (s.mode = .running →
      exec .update1ch s =
        .next { s with
          chA := { tw := s.chA.tw, acc := acc }
          outa := { raw := raw, smp := (raw.toNat : Int) - (s.res.mid : Int) }
          ovalid := true }) ∧
    (s.mode = .unconfigured → exec .update1ch s = .fault .updateBeforeBegin) ∧
    ∀ a p b q : Word, decodeKey 0b00010 a p b q = .update1ch

/-- R88: UPDATE.2CH. -/
def Obligations.UpdateDualAdvancesAndSamplesBoth : Prop :=
  ∀ s : State,
    let accA := s.chA.acc + s.chA.tw
    let accB := s.chB.acc + s.chB.tw
    let rawA := Memory.read s.res s.lut (accA.toNat / 2 ^ s.res.shift)
    let rawB := Memory.read s.res s.lut (accB.toNat / 2 ^ s.res.shift)
    (s.mode = .running →
      exec .update2ch s =
        .next { s with
          chA := { tw := s.chA.tw, acc := accA }
          chB := { tw := s.chB.tw, acc := accB }
          outa := { raw := rawA, smp := (rawA.toNat : Int) - (s.res.mid : Int) }
          outb := { raw := rawB, smp := (rawB.toNat : Int) - (s.res.mid : Int) }
          ovalid := true }) ∧
    (s.mode = .unconfigured → exec .update2ch s = .fault .updateBeforeBegin) ∧
    ∀ a p b q : Word, decodeKey 0b00110 a p b q = .update2ch

/-- R93: UPDATE.IQ. The Q phase is the advanced accumulator plus `2^30` modulo `2^32`, and is not stored. -/
def Obligations.UpdateIqAdvancesAndSamples : Prop :=
  ∀ s : State,
    let acc := s.chA.acc + s.chA.tw
    let rawI := Memory.read s.res s.lut (acc.toNat / 2 ^ s.res.shift)
    let rawQ := Memory.read s.res s.lut (((acc.toNat + 2 ^ 30) % 2 ^ 32) / 2 ^ s.res.shift)
    (s.mode = .running →
      exec .updateIq s =
        .next { s with
          chA := { tw := s.chA.tw, acc := acc }
          outI := { raw := rawI, smp := (rawI.toNat : Int) - (s.res.mid : Int) }
          outQ := { raw := rawQ, smp := (rawQ.toNat : Int) - (s.res.mid : Int) }
          ovalid := true }) ∧
    (s.mode = .unconfigured → exec .updateIq s = .fault .updateBeforeBegin) ∧
    ∀ a p b q : Word, decodeKey 0b01010 a p b q = .updateIq

/-- R98: UPDATE.3PH. The V and W phases are the advanced accumulator plus `OFF120` and plus `OFF240` modulo `2^32`. -/
def Obligations.UpdateThreePhaseAdvancesAndSamples : Prop :=
  ∀ s : State,
    let acc := s.chA.acc + s.chA.tw
    let rawU := Memory.read s.res s.lut (acc.toNat / 2 ^ s.res.shift)
    let rawV := Memory.read s.res s.lut (((acc.toNat + 1431655765) % 2 ^ 32) / 2 ^ s.res.shift)
    let rawW := Memory.read s.res s.lut (((acc.toNat + 2863311531) % 2 ^ 32) / 2 ^ s.res.shift)
    (s.mode = .running →
      exec .update3ph s =
        .next { s with
          chA := { tw := s.chA.tw, acc := acc }
          outU := { raw := rawU, smp := (rawU.toNat : Int) - (s.res.mid : Int) }
          outV := { raw := rawV, smp := (rawV.toNat : Int) - (s.res.mid : Int) }
          outW := { raw := rawW, smp := (rawW.toNat : Int) - (s.res.mid : Int) }
          ovalid := true }) ∧
    (s.mode = .unconfigured → exec .update3ph s = .fault .updateBeforeBegin) ∧
    ∀ a p b q : Word, decodeKey 0b01110 a p b q = .update3ph

/-- R117, R24: RESET, from every state: the flags are cleared, the parameters stand, the data registers of the instance hold some
value of their types, and a step that presents it is any with `rst = 1`; the flags of the state after reset. -/
def Obligations.ResetClearsFlagsAndKeepsParameters : Prop :=
  (∀ s : State, ∃ t : State, exec .reset s = .next t ∧
    t.mode = .unconfigured ∧ t.ovalid = false ∧ s.sameParams t ∧ t.widthsHold) ∧
  (∀ (t : Topology) (p : Ports), p.rst = true → decodePorts t p = .reset) ∧
  State.reset.mode = .unconfigured ∧ State.reset.ovalid = false

/-- R49: the reserved code is refused from every state, by the command and by a step that presents it; with `rst = 1` the same
`cmd` is a RESET. -/
def Obligations.ReservedCodeIsRefused : Prop :=
  (∀ s : State, exec .reserved s = .refused .reservedCommand) ∧
  (∀ (t : Topology) (a p b q : Word),
    decodePorts t { rst := false, cmd := 0b11, twA := a, phA := p, twB := b, phB := q } = .reserved ∧
    decodePorts t { rst := true, cmd := 0b11, twA := a, phA := p, twB := b, phB := q } = .reset) ∧
  (∀ (s : State) (p : Ports) (ps : List Ports), s.paramsLegal = true → s.inputs = p :: ps → p.rst = false → p.cmd = 0b11 →
    step s = .refused .reservedCommand)

/-- R106: an UPDATE has no meaning exactly while the instance is UNCONFIGURED, and then the model faults. -/
def Obligations.UpdateBeforeBeginFaults : Prop :=
  ∀ (i : Instr) (s : State), i.isUpdate = true →
    (exec i s = .fault .updateBeforeBegin ↔ s.mode = .unconfigured) ∧
    ((∃ t, exec i s = .next t) ↔ s.mode = .running)

/-- R103, R107: nothing else stops a run. Every command completes from every state, with every operand, but for an UPDATE in
UNCONFIGURED and the reserved code (R106, R49). The two clauses about `step` rest besides on the model's choice, no rule of the spec,
where they speak of `paramsLegal`: that `step` refuses a state that was not built (log entry 11), and that `paramsLegal` asks for the
canonical form, so that a list of cells R5 allows but that names a `MID` entry is refused too (log entry 4). -/
def Obligations.NothingElseStopsARun : Prop :=
  (∀ (i : Instr) (s : State),
    (∀ e, exec i s = .fault e ↔ e = .updateBeforeBegin ∧ i.isUpdate = true ∧ s.mode = .unconfigured) ∧
    (∀ e, exec i s = .refused e ↔ e = .reservedCommand ∧ i = .reserved) ∧
    ((∃ t, exec i s = .next t) ↔ i ≠ .reserved ∧ (i.isUpdate = true → s.mode = .running))) ∧
  (∀ s : State,
    ((∃ t, step s = .next t) ↔
      s.paramsLegal = true ∧ decodePorts s.topo s.presented ≠ .reserved ∧
      ((decodePorts s.topo s.presented).isUpdate = true → s.mode = .running)) ∧
    (step s = .refused .illegalParameter ↔ s.paramsLegal = false))

/-- R91: every BEGIN and UPDATE is the one generic pattern of its topology. -/
def Obligations.GenericFormAgrees : Prop :=
  ∀ (s : State) (p : Ports),
    exec (beginOf s.topo p) s =
      .next { s.topo.channels.foldl
        (fun u c => u.setChan c { tw := (p.operandsOf c).1, acc := (p.operandsOf c).2 }) s with mode := .running } ∧
    exec (beginOf s.topo p) s = genericBegin p s ∧
    exec (updateOf s.topo) s = genericUpdate s

/-! ### Frames -/

/-- Frame of the four BEGINs (R22, D11): the parameters, every table entry, `ovalid`, every output register and the model's own
fields are unchanged; channel B is, but for BEGIN.2CH. -/
def Obligations.BeginLeavesOutputsAlone : Prop :=
  ∀ (i : Instr) (s t : State), i.isBegin = true → exec i s = .next t →
    s.sameParams t ∧ (∀ k, t.sampleAt k = s.sampleAt k) ∧ t.ovalid = s.ovalid ∧ (∀ o, t.out o = s.out o) ∧
    (i.format = .C1 → t.chan .B = s.chan .B) ∧ t.inputs = s.inputs ∧ t.draws = s.draws

/-- Frame of the four UPDATEs (R22, R70): the parameters, every table entry, `mode`, every tuning word and the model's own fields are
unchanged; channel B is, but for UPDATE.2CH; and every output that is not one of the command's own. -/
def Obligations.UpdateLeavesConfigurationAlone : Prop :=
  ∀ (i : Instr) (s t : State), i.isUpdate = true → exec i s = .next t →
    s.sameParams t ∧ (∀ k, t.sampleAt k = s.sampleAt k) ∧ t.mode = s.mode ∧ (∀ c, t.tw c = s.tw c) ∧
    (i ≠ .update2ch → t.chan .B = s.chan .B) ∧ t.inputs = s.inputs ∧ t.draws = s.draws ∧
    (i = .update1ch → ∀ o, o ≠ .a → t.out o = s.out o) ∧
    (i = .update2ch → ∀ o, o ≠ .a → o ≠ .b → t.out o = s.out o) ∧
    (i = .updateIq → ∀ o, o ≠ .I → o ≠ .Q → t.out o = s.out o) ∧
    (i = .update3ph → ∀ o, o ≠ .U → o ≠ .V → o ≠ .W → t.out o = s.out o)

/-- Frame of RESET (R117), with the model's free values (log entry 2): the parameters, every table entry, the queued samples and
the registers the instance does not have are unchanged; each register it has holds that draw's free value. -/
def Obligations.ResetDrawsOnlyOwnRegisters : Prop :=
  ∀ s t : State, exec .reset s = .next t →
    s.sameParams t ∧ (∀ k, t.sampleAt k = s.sampleAt k) ∧ t.inputs = s.inputs ∧ t.draws = s.draws + 1 ∧
    (∀ c, c ∈ s.topo.channels → t.chan c = { tw := Config.freeTw s.draws c, acc := Config.freeAcc s.draws c }) ∧
    (∀ c, c ∉ s.topo.channels → t.chan c = s.chan c) ∧
    (∀ o, o ∈ s.topo.outputs.map OutputSpec.name →
      t.out o = { raw := freeRawValue s.res (Config.freeRaw s.draws o), smp := freeSmpValue s.res (Config.freeSmp s.draws o) }) ∧
    (∀ o, o ∉ s.topo.outputs.map OutputSpec.name → t.out o = s.out o)

/-! ### Rules of the whole machine -/

/-- R25 (a), (b): every step of an instance keeps its invariant. -/
def Obligations.StepKeepsInvariant : Prop :=
  ∀ s t : State, s.Inv → step s = .next t → t.Inv

/-- The invariant holds of the state after reset and of every instance as built. -/
def Obligations.InvariantHoldsAtReset : Prop :=
  State.reset.Inv ∧
  ∀ (t : Topology) (r : Resolution) (entries : List Nat) (s : State), State.build t r entries = .next s → s.Inv

/-- R27: however many steps an instance takes, its table stands as it was; two reads of one index, at any two times and from any
instances that share the table, return the same value. -/
def Obligations.TableIsNeverWritten : Prop :=
  (∀ (n : Nat) (s t : State), runSteps n s = .next t → s.sameParams t) ∧
  (∀ (n m : Nat) (s t s' t' : State), s'.res = s.res → s'.lut = s.lut → runSteps n s = .next t → runSteps m s' = .next t' →
    ∀ k, t'.sampleAt k = t.sampleAt k ∧ t.sampleAt k = s.sampleAt k)

/-- R11: what writes `mode`, what reads it, and its encoding. -/
def Obligations.ModeFollowsLifecycle : Prop :=
  (∀ (i : Instr) (s t : State), exec i s = .next t →
    (i.isBegin = true → t.mode = .running) ∧
    (t.mode = .running → s.mode = .running ∨ i.isBegin = true) ∧
    (t.mode = .unconfigured ↔ i = .reset ∨ (s.mode = .unconfigured ∧ i.isBegin = false)) ∧
    (i.isUpdate = true → s.mode = .running)) ∧
  Mode.unconfigured.code = 0 ∧ Mode.running.code = 1

/-- R22: the complete table of writers, every register under every command of the instance's own topology, and the values written. -/
def Obligations.RegistersWrittenOnlyByListedCommands : Prop :=
  ∀ s : State,
    (∃ t, exec .reset s = .next t ∧ t.mode = .unconfigured ∧ t.ovalid = false ∧ t.widthsHold) ∧
    (∀ p : Ports, ∃ t, exec (beginOf s.topo p) s = .next t ∧
      t.mode = .running ∧ t.ovalid = s.ovalid ∧
      (∀ c ∈ s.topo.channels, t.tw c = (p.operandsOf c).1 ∧ t.acc c = (p.operandsOf c).2) ∧
      (∀ o ∈ s.topo.outputs, t.raw o.name = s.raw o.name ∧ t.smp o.name = s.smp o.name)) ∧
    (s.mode = .running → ∃ t, exec (updateOf s.topo) s = .next t ∧
      t.mode = s.mode ∧ t.ovalid = true ∧
      (∀ c ∈ s.topo.channels, t.tw c = s.tw c ∧ t.acc c = s.acc c + s.tw c) ∧
      (∀ o ∈ s.topo.outputs,
        t.raw o.name = Memory.read s.res s.lut ((s.acc o.chan + s.tw o.chan + o.offset).toNat / 2 ^ s.res.shift) ∧
        t.smp o.name = ((t.raw o.name).toNat : Int) - (s.res.mid : Int))) ∧
    exec .nop s = .next s

/-- R25 (c): after any stream of the instance's commands whose latest one other than NOP is an UPDATE, every output is the table
entry of the current accumulator plus its offset. -/
def Obligations.OutputsFollowCurrentAccumulator : Prop :=
  ∀ (is : List Instr) (s t : State), (∀ i ∈ is, i.wellFormed s.topo = true) → execAll is s = .next t →
    (latestCommand is).isUpdate = true → t.outputsCurrent

/-- R129, R25 (d): between a BEGIN in RUNNING and the next UPDATE the accumulators are the new ones, while the outputs and `ovalid` are
those of the UPDATE before. -/
def Obligations.OutputsStaleAfterReconfiguration : Prop :=
  ∀ (s t : State) (p : Ports) (n : Nat), exec (updateOf s.topo) s = .next t →
    ∃ u, execAll (beginOf s.topo p :: List.replicate n .nop) t = .next u ∧
      (∀ c ∈ s.topo.channels, u.acc c = (p.operandsOf c).2) ∧ (∀ o, u.out o = t.out o) ∧ u.ovalid = true

/-! ### The phase accumulator -/

/-- R72: linearity, NOPs interleaved. -/
def Obligations.AccumulatorIsLinear : Prop :=
  ∀ (is : List Instr) (s : State), s.mode = .running → steady s.topo is →
    ∃ t, execAll is s = .next t ∧ ∀ c ∈ s.topo.channels,
      t.tw c = s.tw c ∧ (t.acc c).toNat = ((s.acc c).toNat + ticks s.topo is * (s.tw c).toNat) % 2 ^ 32

/-- R73: the accumulator returns to its initial value after exactly the multiples of `P(t)` ticks; the special cases of `P`; an odd
tuning word visits every value once per period; a period goes round the circle `t / gcd(2^32, t)` times. -/
def Obligations.AccumulatorIsPeriodic : Prop :=
  (∀ (n : Nat) (s t : State) (c : Chan), s.mode = .running → c ∈ s.topo.channels →
    execAll (List.replicate n (updateOf s.topo)) s = .next t → (t.acc c = s.acc c ↔ phasePeriod (s.tw c) ∣ n)) ∧
  phasePeriod 0 = 1 ∧
  (∀ t : Word, t.toNat % 2 = 1 → phasePeriod t = 2 ^ 32) ∧
  (∀ (t : Word) (k m : Nat), t.toNat = 2 ^ k * m → m % 2 = 1 → k ≤ 31 → phasePeriod t = 2 ^ (32 - k)) ∧
  phasePeriod 429496730 = 2147483648 ∧
  (∀ (s : State) (c : Chan) (v : Word), s.mode = .running → c ∈ s.topo.channels → (s.tw c).toNat % 2 = 1 →
    ∃ n < 2 ^ 32, (∃ t, execAll (List.replicate n (updateOf s.topo)) s = .next t ∧ t.acc c = v) ∧
      ∀ m < 2 ^ 32, (∃ t, execAll (List.replicate m (updateOf s.topo)) s = .next t ∧ t.acc c = v) → m = n) ∧
  (∀ t : Word, phasePeriod t * t.toNat = 2 ^ 32 * (t.toNat / Nat.gcd (2 ^ 32) t.toNat))

/-- R74: when ADVANCE wraps, in its three forms, and how many wraps `n` ticks make. -/
def Obligations.AdvanceWrapsAtFullCircle : Prop :=
  (∀ (s : State) (c : Chan),
    (wraps (s.acc c) (s.tw c) = true ↔ 2 ^ 32 ≤ (s.acc c).toNat + (s.tw c).toNat) ∧
    (wraps (s.acc c) (s.tw c) = true ↔ ((s.paAdvance c).acc c).toNat < (s.acc c).toNat ∧ s.tw c ≠ 0) ∧
    (wraps (s.acc c) (s.tw c) = true ↔ 0xFFFFFFFF - (s.tw c).toNat < (s.acc c).toNat)) ∧
  (∀ (p t : Word) (n : Nat),
    (List.range n).countP (fun k => wraps (BitVec.ofNat 32 (p.toNat + k * t.toNat)) t) = (p.toNat + n * t.toNat) / 2 ^ 32)

/-- R75: how the index steps at an ADVANCE, and the example's first five indices. -/
def Obligations.IndexStepsByQuotientOrOneMore : Prop :=
  (∀ (s : State) (c : Chan),
    let q := (s.tw c).toNat / 2 ^ s.res.shift
    let r := (s.tw c).toNat % 2 ^ s.res.shift
    let e := if 2 ^ s.res.shift ≤ (s.acc c).toNat % 2 ^ s.res.shift + r then 1 else 0
    indexFor s.res ((s.paAdvance c).acc c) = (indexFor s.res (s.acc c) + q + e) % s.res.tableLength) ∧
  (429496730 / 2 ^ 24 = 25 ∧ 429496730 % 2 ^ 24 = 10066330) ∧
  (List.range 5).map (fun n => indexFor .res8 (BitVec.ofNat 32 ((n + 1) * 429496730))) = [25, 51, 76, 102, 128] ∧
  (∀ (s : State) (c : Chan), (s.tw c).toNat % 2 ^ s.res.shift = 0 →
    indexFor s.res ((s.paAdvance c).acc c) =
      (indexFor s.res (s.acc c) + (s.tw c).toNat / 2 ^ s.res.shift) % s.res.tableLength) ∧
  (∀ (s : State) (c : Chan), (s.acc c).toNat % 2 ^ s.res.shift + (s.tw c).toNat < 2 ^ s.res.shift →
    indexFor s.res ((s.paAdvance c).acc c) = indexFor s.res (s.acc c))

/-! ### The lookup -/

/-- R81, R32: the entry used is the one at or just below the phase, as words and as angles (R7), its index always in range; `2^SHIFT`
phases share one entry. -/
def Obligations.LookupQuantisesDownward : Prop :=
  (∀ (r : Resolution) (p : Word),
    indexFor r p < r.tableLength ∧
    indexFor r p * 2 ^ r.shift ≤ p.toNat ∧ p.toNat < (indexFor r p + 1) * 2 ^ r.shift) ∧
  (∀ (r : Resolution) (i : Nat) (p : Word), i < r.tableLength →
    (indexFor r p = i ↔ i * 2 ^ r.shift ≤ p.toNat ∧ p.toNat < i * 2 ^ r.shift + 2 ^ r.shift)) ∧
  2 ^ Resolution.res8.shift = 16777216 ∧ 2 ^ Resolution.res10.shift = 4194304 ∧
  (∀ (r : Resolution) (p : Word),
    2 * Real.pi * (indexFor r p : ℝ) / (r.tableLength : ℝ) ≤ (p.toNat : ℝ) * (2 * Real.pi) / 2 ^ 32 ∧
    (p.toNat : ℝ) * (2 * Real.pi) / 2 ^ 32 < 2 * Real.pi * ((indexFor r p : ℝ) + 1) / (r.tableLength : ℝ))

/-- R82: the index of a phase plus an offset, and the quotient and remainder of the three constants in both resolutions. -/
def Obligations.OffsetShiftsIndex : Prop :=
  (∀ (r : Resolution) (p off : Word),
    let k := off.toNat / 2 ^ r.shift
    let e := if 2 ^ r.shift ≤ p.toNat % 2 ^ r.shift + off.toNat % 2 ^ r.shift then 1 else 0
    indexFor r (withOffset p off) = (indexFor r p + k + e) % r.tableLength) ∧
  (∀ (r : Resolution) (p off : Word), off.toNat % 2 ^ r.shift = 0 →
    indexFor r (withOffset p off) = (indexFor r p + off.toNat / 2 ^ r.shift) % r.tableLength) ∧
  (∀ (r : Resolution) (p : Word),
    indexFor r (withOffset p off90) = (indexFor r p + r.tableLength / 4) % r.tableLength) ∧
  (off90.toNat / 2 ^ 24 = 64 ∧ off90.toNat % 2 ^ 24 = 0 ∧ off90.toNat / 2 ^ 22 = 256 ∧ off90.toNat % 2 ^ 22 = 0) ∧
  (off120.toNat / 2 ^ 24 = 85 ∧ off120.toNat % 2 ^ 24 = 0x555555 ∧
    off120.toNat / 2 ^ 22 = 341 ∧ off120.toNat % 2 ^ 22 = 0x155555) ∧
  (off240.toNat / 2 ^ 24 = 170 ∧ off240.toNat % 2 ^ 24 = 0xAAAAAB ∧
    off240.toNat / 2 ^ 22 = 682 ∧ off240.toNat % 2 ^ 22 = 0x2AAAAB)

/-- R79, R44: a table value less `MID` lies in `-MID..MID`, its port code carries it exactly, and the most negative code and the
topmost raw code never occur. -/
def Obligations.SignedSampleFitsItsPort : Prop :=
  toSigned .res8 200 = 73 ∧
  ∀ (r : Resolution) (raw : Raw), raw.toNat ≤ r.rawMax →
    toSigned r raw = (raw.toNat : Int) - (r.mid : Int) ∧
    -(r.mid : Int) ≤ toSigned r raw ∧ toSigned r raw ≤ (r.mid : Int) ∧
    (portCode r (toSigned r raw)).toInt = toSigned r raw ∧
    (∀ w, r.bits ≤ w → ((portCode r (toSigned r raw)).signExtend w).toInt = toSigned r raw) ∧
    (portCode r (toSigned r raw)).toNat ≠ 2 ^ (r.bits - 1) ∧ raw.toNat ≠ 2 ^ r.bits - 1 ∧
    (toSigned r raw = -(r.mid : Int) ↔ raw.toNat = 0) ∧ (toSigned r raw = 0 ↔ raw.toNat = r.mid) ∧
    (toSigned r raw = (r.mid : Int) ↔ raw.toNat = r.rawMax)

/-! ### The topologies -/

/-- R94: in every state an UPDATE.IQ reaches, Q is the table entry exactly a quarter table after I's. -/
def Obligations.QuadratureIsLocked : Prop :=
  ∀ s : State, s.mode = .running → ∃ t, exec .updateIq s = .next t ∧
    let i := indexFor t.res (t.acc .A)
    t.raw .I = t.sampleAt i ∧
    t.raw .Q = t.sampleAt (((t.acc .A).toNat + 2 ^ 30) % 2 ^ 32 / 2 ^ t.res.shift) ∧
    ((t.acc .A).toNat + 2 ^ 30) % 2 ^ 32 / 2 ^ t.res.shift = (i + t.res.tableLength / 4) % t.res.tableLength ∧
    t.raw .Q = t.sampleAt ((i + t.res.tableLength / 4) % t.res.tableLength)

/-- R99: in every state an UPDATE.3PH reaches, the V and W indices lie the table's two values after U's, chosen by the fraction bits. -/
def Obligations.ThreePhaseIndexOffsets : Prop :=
  ∀ s : State, s.mode = .running → ∃ t, exec .update3ph s = .next t ∧
    let f := fractionOf t.res (t.acc .A)
    let iU := indexFor t.res (t.acc .A)
    let iV := indexFor t.res (withOffset (t.acc .A) off120)
    let iW := indexFor t.res (withOffset (t.acc .A) off240)
    let n := (t.res.tableLength : Int)
    t.raw .U = t.sampleAt iU ∧ t.raw .V = t.sampleAt iV ∧ t.raw .W = t.sampleAt iW ∧
    withOffset (t.acc .A) off120 - t.acc .A = 0x55555555 ∧ withOffset (t.acc .A) off240 - t.acc .A = 0xAAAAAAAB ∧
    (t.res = .res8 → ((iV : Int) - iU) % n = (if f < 0xAAAAAB then 85 else 86) ∧
      ((iW : Int) - iU) % n = (if f < 0x555555 then 170 else 171)) ∧
    (t.res = .res10 → ((iV : Int) - iU) % n = (if f < 0x2AAAAB then 341 else 342) ∧
      ((iW : Int) - iU) % n = (if f < 0x155555 then 682 else 683))

/-- R100: the spacing of the three phases. -/
def Obligations.ThreePhasesSumToFullCircle : Prop :=
  (off120.toNat + off240.toNat) % 2 ^ 32 = 0 ∧
  (∀ p : Word, withOffset p off120 = p - off240 ∧ withOffset p off240 = p - off120 ∧
    withOffset p off120 - p = 0x55555555 ∧ withOffset p off240 - withOffset p off120 = 0x55555556 ∧
    p - withOffset p off240 = 0x55555555) ∧
  0x55555555 + 0x55555556 + 0x55555555 = 2 ^ 32

/-- R86, R96, R102: what an instance of any topology holds after a BEGIN and a steady stream of `n >= 1` ticks. -/
def Obligations.OutputSequenceAfterBegin : Prop :=
  ∀ (s : State) (p : Ports) (is : List Instr), steady s.topo is → 1 ≤ ticks s.topo is →
    ∃ t, execAll (beginOf s.topo p :: is) s = .next t ∧ t.ovalid = true ∧
      (∀ c ∈ s.topo.channels,
        (t.acc c).toNat = ((p.operandsOf c).2.toNat + ticks s.topo is * (p.operandsOf c).1.toNat) % 2 ^ 32) ∧
      (∀ o ∈ s.topo.outputs,
        t.raw o.name = s.sampleAt (((p.operandsOf o.chan).2.toNat + ticks s.topo is * (p.operandsOf o.chan).1.toNat +
          o.offset.toNat) % 2 ^ 32 / 2 ^ s.res.shift) ∧
        t.smp o.name = ((t.raw o.name).toNat : Int) - (s.res.mid : Int))

/-- R86: the samples of any output repeat with a period that divides `P(t)`. -/
def Obligations.SamplesArePeriodic : Prop :=
  ∀ (s : State) (n k : Nat) (o : OutputSpec), s.mode = .running → o ∈ s.topo.outputs → 1 ≤ n →
    ∃ t u, execAll (List.replicate n (updateOf s.topo)) s = .next t ∧
      execAll (List.replicate (n + k * phasePeriod (s.tw o.chan)) (updateOf s.topo)) s = .next u ∧
      u.out o.name = t.out o.name

/-- R39, R89: what channel A of a DUAL instance holds after any stream is a function of channel A before it and of A's operands;
likewise for B. Two instances that agree on one channel and receive, command by command, the same operands for it, agree on it
afterwards, whatever the other channel held and received. Where a stream holds a RESET, the agreement on registers the spec leaves
unspecified (R24, R117) rests on log entry 2, that equal counters `draws` draw equal values: that part is the model's choice, no rule
of the spec. -/
def Obligations.DualChannelsDoNotInfluenceEachOther : Prop :=
  ∀ (c : Chan) (is js : List Instr) (s s' t t' : State), s.topo = .dual → s.sameParams s' → s'.mode = s.mode →
    s'.draws = s.draws → s'.chan c = s.chan c →
    s'.out (dualOutput c) = s.out (dualOutput c) →
    (∀ i ∈ is ++ js, i.wellFormed .dual = true) → is.map (dualToSingle c) = js.map (dualToSingle c) →
    execAll is s = .next t → execAll js s' = .next t' →
    t'.chan c = t.chan c ∧
    t'.out (dualOutput c) = t.out (dualOutput c)

/-- R89: a DUAL instance behaves as two SINGLE instances of the same resolution and table that always receive the same command in
the same step: whatever stream the DUAL instance performs, each of the two performs its part of it and stands as its channel
afterwards, and they stop where it stops. -/
def Obligations.DualBehavesAsTwoSingles : Prop :=
  ∀ (c : Chan) (is : List Instr) (d s : State), standsAs c d s →
    (∀ i ∈ is, i.wellFormed .dual = true) →
    (∀ d', execAll is d = .next d' → ∃ s', execAll (is.map (dualToSingle c)) s = .next s' ∧ standsAs c d' s') ∧
    (∀ e, execAll is d = .fault e → execAll (is.map (dualToSingle c)) s = .fault e) ∧
    (∀ e, execAll is d = .refused e → execAll (is.map (dualToSingle c)) s = .refused e)

/-- R96: an IQ instance and a DUAL instance loaded with the same tuning word twice and a second phase a quarter circle ahead give the
same samples at every tick. -/
def Obligations.IqSamplesMatchShiftedDual : Prop :=
  ∀ (n : Nat) (s d : State), loadedAsIq s d →
    ∃ t u, execAll (List.replicate (n + 1) .updateIq) s = .next t ∧ execAll (List.replicate (n + 1) .update2ch) d = .next u ∧
      u.out .a = t.out .I ∧ u.out .b = t.out .Q ∧ loadedAsIq t u

/-- R38: a command to one instance changes that instance only, whether it completes or stops; after any interleaving of the instances'
streams an instance is in a state exactly when its own steps, run alone, give it that state, whatever has become of the others; and two
interleavings with the same steps for each instance give each the same final state. What is said of an instance that stops is the
model's reading (log entries 13, 14), no rule of the spec: R106 and R107 end its run, and the model takes the stop to last, its place in
the system holding it whatever is presented afterwards, a RESET included, though R112 names reset as the way out (log entry 15 has that
for one instance). -/
def Obligations.InterleavingsGiveSameStates : Prop :=
  (∀ (k : Nat) (sys : System),
    (stepInstance k sys).length = sys.length ∧
    (∀ s : State, sys[k]? = some (.next s) → (stepInstance k sys)[k]? = some (step s)) ∧
    ∀ j, j ≠ k → (stepInstance k sys)[j]? = sys[j]?) ∧
  (∀ (order : List Nat) (sys : System),
    (stepInstances order sys).length = sys.length ∧
    ∀ (k : Nat) (s t : State), sys[k]? = some (.next s) →
      ((stepInstances order sys)[k]? = some (.next t) ↔ runSteps (order.count k) s = .next t)) ∧
  (∀ (order order' : List Nat) (sys : System), (∀ k, order'.count k = order.count k) →
    ∀ (k : Nat) (t : State),
      (stepInstances order' sys)[k]? = some (.next t) ↔ (stepInstances order sys)[k]? = some (.next t))

/-! ### Readers and parameters -/

/-- R51: the output ports by topology, the register each drives, and their widths; there is no other port, none for a tuning word. -/
def Obligations.OutputPortsDriveRegisters : Prop :=
  outputPorts .single = [.mode, .ovalid, .acc .A, .raw .a, .smp .a] ∧
  outputPorts .dual = [.mode, .ovalid, .acc .A, .acc .B, .raw .a, .smp .a, .raw .b, .smp .b] ∧
  outputPorts .iq = [.mode, .ovalid, .acc .A, .raw .I, .smp .I, .raw .Q, .smp .Q] ∧
  outputPorts .threePhase = [.mode, .ovalid, .acc .A, .raw .U, .smp .U, .raw .V, .smp .V, .raw .W, .smp .W] ∧
  ∀ s : State,
    (∀ n, n ∉ outputPorts s.topo → s.readPort n = none) ∧
    s.readPort .mode = some { width := 1, bits := s.mode.code } ∧
    s.readPort .ovalid = some { width := 1, bits := BitVec.ofBool s.ovalid } ∧
    (∀ c ∈ s.topo.channels, s.readPort (.acc c) = some { width := 32, bits := s.acc c }) ∧
    (∀ o ∈ s.topo.outputs,
      s.readPort (.raw o.name) = some { width := s.res.bits, bits := (s.raw o.name).setWidth s.res.bits } ∧
      s.readPort (.smp o.name) = some { width := s.res.bits, bits := BitVec.ofInt s.res.bits (s.smp o.name) })

/-- R51, R44 with R25 (b): once `ovalid` is set, an instance has both ports of each of its outputs, and what a reader gets there are
the register values themselves: the `raw` port's bits read unsigned, the `smp` port's in two's complement. -/
def Obligations.ValidSamplesReadBackExactly : Prop :=
  ∀ (s : State) (o : OutputSpec), s.Inv → s.ovalid = true → o ∈ s.topo.outputs →
    (∃ v, s.readPort (.raw o.name) = some v ∧ v.bits.toNat = (s.raw o.name).toNat) ∧
    (∃ v, s.readPort (.smp o.name) = some v ∧ v.bits.toInt = s.smp o.name)

/-- R5, R107: an instance is built exactly from `N` entries in `0..RAWMAX`; its table then reads as they stand, in the model's
canonical form. -/
def Obligations.BuildTakesExactlyLegalTables : Prop :=
  ∀ (t : Topology) (r : Resolution) (entries : List Nat),
    (entries.length = r.tableLength ∧ (∀ v ∈ entries, v ≤ r.rawMax) →
      ∃ s, State.build t r entries = .next s ∧ s.topo = t ∧ s.res = r ∧ s.mode = .unconfigured ∧ s.ovalid = false ∧
        s.paramsLegal = true ∧
        ∀ i (h : i < entries.length), (s.sampleAt i).toNat = entries[i]) ∧
    (¬ (entries.length = r.tableLength ∧ ∀ v ∈ entries, v ≤ r.rawMax) →
      State.build t r entries = .refused .illegalParameter)

/-- The table space as data (log entry 4): a supplied entry reads back and leaves every other entry, and two legal tables that read
alike are the same data. -/
def Obligations.TableReadsBackAndIsCanonical : Prop :=
  (∀ (r : Resolution) (m : Memory) (i k : Nat) (v : Raw), Memory.wf r m = true →
    Memory.read r (Memory.supply r i v m) k = if k = i then v else Memory.read r m k) ∧
  (∀ (r : Resolution) (m m' : Memory), Memory.wf r m = true → Memory.wf r m' = true →
    (∀ i, Memory.read r m i = Memory.read r m' i) → m = m')

/-! ### The host side -/

/-- R61: the tuning word of exact real arguments is the rounded product modulo `2^32`; the document's worked number. -/
def Obligations.TuningWordIsRoundedProduct : Prop :=
  (∀ f t : ℝ, 0 ≤ f * t → ∃ w : Word,
    computeTuningWord (FloatEval.exact (2 * Real.pi)) (.finite f) (.finite t) = .next w ∧
    (w.toNat : Int) = roundHalfAway (2 ^ 32 * f * t) % 2 ^ 32) ∧
  computeTuningWord (FloatEval.exact (2 * Real.pi)) (.finite 1000) (.finite (1 / 10000)) = .next 0x1999999A

/-- R62: `round` gives the nearest integer, and on a tie the one farther from zero. -/
def Obligations.RoundTiesAwayFromZero : Prop :=
  (∀ x : ℝ, |(roundHalfAway x : ℝ) - x| ≤ 1 / 2 ∧
    (|(roundHalfAway x : ℝ) - x| = 1 / 2 → |x| < |(roundHalfAway x : ℝ)|)) ∧
  (∀ x : ℝ, 0 ≤ x → roundHalfAway x = ⌊x + 1 / 2⌋) ∧
  roundHalfAway (1 / 2 : ℝ) = 1 ∧ roundHalfAway (5 / 2 : ℝ) = 3 ∧
  computeTuningWord (FloatEval.exact (2 * Real.pi)) (.finite 1) (.finite (1 / 2 ^ 33)) = .next 1

/-- R63: when the tuning word wraps, and what it then is. -/
def Obligations.TuningWordWrapsSilently : Prop :=
  (∀ f t : ℝ, 0 ≤ f * t →
    (2 ^ 32 ≤ roundHalfAway (2 ^ 32 * f * t) ↔ 1 - 1 / 2 ^ 33 ≤ f * t) ∧
    (∃ w : Word, computeTuningWord (FloatEval.exact (2 * Real.pi)) (.finite f) (.finite t) = .next w ∧
      (w.toNat : Int) = roundHalfAway (2 ^ 32 * f * t) % 2 ^ 32 ∧
      (f * t < 1 - 1 / 2 ^ 33 → (w.toNat : Int) = roundHalfAway (2 ^ 32 * f * t))) ∧
    (2 ^ 32 * f * t < 2 ^ 32 → 1 - 1 / 2 ^ 33 ≤ f * t →
      computeTuningWord (FloatEval.exact (2 * Real.pi)) (.finite f) (.finite t) = .next 0)) ∧
  computeTuningWord (FloatEval.exact (2 * Real.pi)) (.finite 10000) (.finite (1 / 10000)) = .next 0 ∧
  computeTuningWord (FloatEval.exact (2 * Real.pi)) (.finite 11000) (.finite (1 / 10000)) = .next 429496730

/-- R64, R65, R66: the initial phase, its floor inside the domain, zero outside it and at both its ends. -/
def Obligations.InitialPhaseIsFloorOrZero : Prop :=
  (∀ x : ℝ, x ≤ 0 ∨ 2 * Real.pi < x → computeInitialPhase (FloatEval.exact (2 * Real.pi)) (.finite x) = .next 0) ∧
  (∀ x : ℝ, 0 < x → x < 2 * Real.pi → ∃ w : Word,
    computeInitialPhase (FloatEval.exact (2 * Real.pi)) (.finite x) = .next w ∧
    (w.toNat : Int) = ⌊x * 2 ^ 32 / (2 * Real.pi)⌋) ∧
  computeInitialPhase (FloatEval.exact (2 * Real.pi)) (.finite (2 * Real.pi)) = .next 0 ∧
  (∀ x : ℝ, 0 < x → x < 2 * Real.pi / 2 ^ 32 →
    computeInitialPhase (FloatEval.exact (2 * Real.pi)) (.finite x) = .next 0) ∧
  computeInitialPhase (FloatEval.exact (2 * Real.pi)) (.finite (Real.pi / 2)) = .next 0x40000000 ∧
  computeInitialPhase (FloatEval.exact (2 * Real.pi)) (.finite 10) = .next 0 ∧
  computeInitialPhase (FloatEval.exact (2 * Real.pi)) (.finite (-1)) = .next 0

/-- R68: the accuracy of the two conversions, the start phase below 2π (R65 reduces 2π itself) and the frequency bound for a
positive sample interval only: both restrictions are the model's reading (log entry 9). -/
def Obligations.ConversionsAreAccurate : Prop :=
  (∀ (f t : ℝ) (w : Word), 0 ≤ f * t → f * t < 1 - 1 / 2 ^ 33 →
    computeTuningWord (FloatEval.exact (2 * Real.pi)) (.finite f) (.finite t) = .next w →
    |(w.toNat : ℝ) - 2 ^ 32 * f * t| ≤ 1 / 2 ∧
    (0 < t → |(w.toNat : ℝ) / (2 ^ 32 * t) - f| ≤ 1 / (2 ^ 33 * t))) ∧
  (∀ (x : ℝ) (w : Word), 0 < x → x < 2 * Real.pi →
    computeInitialPhase (FloatEval.exact (2 * Real.pi)) (.finite x) = .next w →
    0 ≤ x * 2 ^ 32 / (2 * Real.pi) - (w.toNat : ℝ) ∧ x * 2 ^ 32 / (2 * Real.pi) - (w.toNat : ℝ) < 1 ∧
    0 ≤ x - (w.toNat : ℝ) * (2 * Real.pi) / 2 ^ 32 ∧ x - (w.toNat : ℝ) * (2 * Real.pi) / 2 ^ 32 < 2 * Real.pi / 2 ^ 32)

/-- R67, R107: which converter arguments are refused, however the host evaluates. -/
def Obligations.ConverterRefusesMeaninglessArguments : Prop :=
  ∀ (ev : FloatEval ℝ) (f t phi : HostArg ℝ),
    ((∃ w, computeTuningWord ev f t = .next w) ↔ ∃ x y : ℝ, f = .finite x ∧ t = .finite y ∧ 0 ≤ x * y) ∧
    (computeTuningWord ev f t = .refused .converterArgument ↔ ¬ ∃ x y : ℝ, f = .finite x ∧ t = .finite y ∧ 0 ≤ x * y) ∧
    ((∃ w, computeInitialPhase ev phi = .next w) ↔ ∃ x : ℝ, phi = .finite x) ∧
    (computeInitialPhase ev phi = .refused .converterArgument ↔ ¬ ∃ x : ℝ, phi = .finite x)

/-- R54: what the pseudo-operations expand to. -/
def Obligations.PseudoOperationsExpand : Prop :=
  (∀ (ev : FloatEval ℝ) (t : Topology) (f phi i : HostArg ℝ) (tw ph : Word), t ≠ .dual →
    computeTuningWord ev f i = .next tw → computeInitialPhase ev phi = .next ph →
    ∀ p : Ports, p.twA = tw → p.phA = ph → expandBeginF ev t f phi i = .next (beginOf t p)) ∧
  (∀ (ev : FloatEval ℝ) (f1 f2 phi1 phi2 i : HostArg ℝ) (twA phA twB phB : Word),
    computeTuningWord ev f1 i = .next twA → computeInitialPhase ev phi1 = .next phA →
    computeTuningWord ev f2 i = .next twB → computeInitialPhase ev phi2 = .next phB →
    expandBeginF2 ev .dual f1 f2 phi1 phi2 i = .next (.begin2ch twA phA twB phB)) ∧
  (∀ (t : Topology) (n : Nat), (TraceStep.updates n).instrs t = some (List.replicate n (updateOf t))) ∧
  (∀ t : Topology, TraceStep.update.instrs t = some [updateOf t])

/-- R53, U10: what RESET, NOP and BEGIN lines stand for, the BEGIN of another topology malformed; then four examples in characters, a
header, two BEGIN lines and one whose number does not fit u32. That the examples split into their tokens as they do, and that the header's
`name` is the rest of its token, is the model's choice (log entry 10). -/
def Obligations.TraceLinesStandForCommands : Prop :=
  (∀ t : Topology, TraceStep.reset.instrs t = some [.reset] ∧ TraceStep.nop.instrs t = some [.nop]) ∧
  (∀ w p : Word,
    (TraceStep.begin1 w p).instrs .single = some [.begin1ch w p] ∧
    (TraceStep.begin1 w p).instrs .iq = some [.beginIq w p] ∧
    (TraceStep.begin1 w p).instrs .threePhase = some [.begin3ph w p] ∧
    (TraceStep.begin1 w p).instrs .dual = none) ∧
  (∀ w p v q : Word,
    (TraceStep.begin2 w p v q).instrs .dual = some [.begin2ch w p v q] ∧
    ∀ t, t ≠ .dual → (TraceStep.begin2 w p v q).instrs t = none) ∧
  parseHeader "INSTANCE TOPO=THREE_PHASE RES=10 LUT=RAMP10".toList =
    some { topo := .threePhase, res := .res10, lut := some "RAMP10".toList } ∧
  parseLine "BEGIN tw=429496730, ph=0 ; the scenario".toList = some (.begin1 0x1999999A 0) ∧
  parseLine "BEGIN twa=0x10000000, pha=0, twb=0x30000000, phb=0x80000000".toList =
    some (.begin2 0x10000000 0 0x30000000 0x80000000) ∧
  parseLine "BEGIN tw=4294967296, ph=0".toList = none
end

