-- ==== Sys2Proof/Laws/Memory.lean ====
section
/-! SUPPORT. The table space: its canonical form, kept by every operation that makes a table, and the range of what is read (R5,
R26, R32). -/

namespace Sys2Proof.Machine

theorem unlisted_toNat (r : Resolution) : (Memory.unlisted r).toNat = r.mid := by cases r <;> rfl

/-- An index the lookup computes is in range (R32). -/
theorem indexFor_eq (r : Resolution) (p : Word) : indexFor r p = p.toNat / 2 ^ r.shift := by
  simp [indexFor, Nat.shiftRight_eq_div_pow]

theorem indexFor_lt (r : Resolution) (p : Word) : indexFor r p < r.tableLength := by
  have hp := p.isLt
  rw [indexFor_eq]
  cases r <;> simp only [Resolution.shift, Resolution.bits, Resolution.tableLength] <;> omega

/-- What a cell of a legal table satisfies. -/
theorem cellLegal_iff (r : Resolution) (c : Nat × Raw) :
    Memory.cellLegal r c = true ↔ c.1 < r.tableLength ∧ c.2.toNat ≤ r.rawMax ∧ c.2 ≠ Memory.unlisted r := by
  simp [Memory.cellLegal, and_assoc]

/-- A legal table is a sorted list: its first index is below all the later ones, and the rest is legal. -/
theorem wf_cons (r : Resolution) (c : Nat × Raw) (m : Memory) :
    Memory.wf r (c :: m) = true ↔
      Memory.cellLegal r c = true ∧ (∀ d ∈ m, c.1 < d.1) ∧ Memory.wf r m = true := by
  induction m generalizing c with
  | nil => simp [Memory.wf, Memory.rising]
  | cons d m ih =>
    have hd := ih d
    obtain ⟨i, v⟩ := c
    obtain ⟨j, w⟩ := d
    simp only [Memory.wf, Memory.rising, List.all_cons, Bool.and_eq_true, decide_eq_true_eq, List.mem_cons,
      forall_eq_or_imp] at hd ⊢
    constructor
    · rintro ⟨⟨hij, hr⟩, hc, hdl, hm⟩
      obtain ⟨-, hlt, -⟩ := hd.1 ⟨hr, hdl, hm⟩
      exact ⟨hc, ⟨hij, fun e he => lt_trans hij (hlt e he)⟩, hr, hdl, hm⟩
    · rintro ⟨hc, ⟨hij, -⟩, hr, hdl, hm⟩
      exact ⟨⟨hij, hr⟩, hc, hdl, hm⟩

@[simp] theorem wf_nil (r : Resolution) : Memory.wf r [] = true := rfl

/-- Reading an index that no cell lists. -/
theorem read_of_not_listed (r : Resolution) (m : Memory) (i : Nat) (h : ∀ c ∈ m, c.1 ≠ i) :
    Memory.read r m i = Memory.unlisted r := by
  induction m with
  | nil => rfl
  | cons c m ih =>
    obtain ⟨j, v⟩ := c
    have hj : j ≠ i := h (j, v) (by simp)
    simp [Memory.read, hj, ih (fun c hc => h c (by simp [hc]))]

/-- Every entry of a legal table is in `0..RAWMAX` (R5). -/
theorem read_le_rawMax (r : Resolution) (m : Memory) (i : Nat) (h : Memory.wf r m = true) :
    (Memory.read r m i).toNat ≤ r.rawMax := by
  induction m with
  | nil =>
    show (Memory.unlisted r).toNat ≤ r.rawMax
    rw [unlisted_toNat]
    cases r <;> decide
  | cons c m ih =>
    obtain ⟨j, v⟩ := c
    obtain ⟨hc, -, hm⟩ := (wf_cons r (j, v) m).1 h
    by_cases hj : j = i
    · simpa [Memory.read, hj] using ((cellLegal_iff r (j, v)).1 hc).2.1
    · simpa [Memory.read, hj] using ih hm

/-- A cell of a table with one entry supplied is the supplied one or was there before. -/
theorem mem_supply (r : Resolution) (i : Nat) (v : Raw) (m : Memory) (c : Nat × Raw)
    (h : c ∈ Memory.supply r i v m) : (c = (i, v) ∧ v ≠ Memory.unlisted r) ∨ c ∈ m := by
  induction m with
  | nil =>
    simp only [Memory.supply] at h
    split at h <;> simp_all
  | cons d m ih =>
    obtain ⟨j, w⟩ := d
    simp only [Memory.supply] at h
    split at h
    · split at h
      · exact Or.inr h
      · rcases List.mem_cons.1 h with h | h
        · exact Or.inl ⟨h, ‹_›⟩
        · exact Or.inr h
    · split at h
      · split at h
        · exact Or.inr (List.mem_cons_of_mem _ h)
        · rcases List.mem_cons.1 h with h | h
          · exact Or.inl ⟨h, ‹_›⟩
          · exact Or.inr (List.mem_cons_of_mem _ h)
      · rcases List.mem_cons.1 h with h | h
        · exact Or.inr (h ▸ List.mem_cons_self)
        · rcases ih h with h | h
          · exact Or.inl h
          · exact Or.inr (List.mem_cons_of_mem _ h)

/-- Supplying a legal entry keeps the canonical form. -/
theorem supply_wf (r : Resolution) (i : Nat) (v : Raw) (m : Memory) (hi : i < r.tableLength) (hv : v.toNat ≤ r.rawMax)
    (h : Memory.wf r m = true) : Memory.wf r (Memory.supply r i v m) = true := by
  have cell : v ≠ Memory.unlisted r → Memory.cellLegal r (i, v) = true := fun hne =>
    (cellLegal_iff r (i, v)).2 ⟨hi, hv, hne⟩
  induction m with
  | nil =>
    simp only [Memory.supply]
    split
    · rfl
    · exact (wf_cons r (i, v) []).2 ⟨cell ‹_›, by simp, rfl⟩
  | cons d m ih =>
    obtain ⟨j, w⟩ := d
    obtain ⟨hd, hlt, hm⟩ := (wf_cons r (j, w) m).1 h
    simp only [Memory.supply]
    split
    · rename_i hij
      split
      · exact h
      · refine (wf_cons r (i, v) _).2 ⟨cell ‹_›, fun e he => ?_, h⟩
        rcases List.mem_cons.1 he with rfl | he
        · exact hij
        · exact lt_trans hij (hlt e he)
    · split
      · rename_i hij
        subst hij
        split
        · exact hm
        · exact (wf_cons r (i, v) m).2 ⟨cell ‹_›, hlt, hm⟩
      · refine (wf_cons r (j, w) _).2 ⟨hd, fun e he => ?_, ih hm⟩
        rcases mem_supply r i v m e he with ⟨rfl, -⟩ | he
        · show j < i
          omega
        · exact hlt e he

/-- The cells of a table made from entries lie at or above its first index and hold entries of the sequence. -/
theorem mem_ofEntriesFrom (r : Resolution) (i : Nat) (l : List Nat) (c : Nat × Raw)
    (h : c ∈ Memory.ofEntriesFrom r i l) :
    i ≤ c.1 ∧ c.1 < i + l.length ∧ c.2 ≠ Memory.unlisted r ∧ ∃ v ∈ l, c.2 = BitVec.ofNat 10 v := by
  induction l generalizing i with
  | nil => simp [Memory.ofEntriesFrom] at h
  | cons v l ih =>
    simp only [Memory.ofEntriesFrom] at h
    have tail : c ∈ Memory.ofEntriesFrom r (i + 1) l →
        i ≤ c.1 ∧ c.1 < i + (v :: l).length ∧ c.2 ≠ Memory.unlisted r ∧ ∃ u ∈ v :: l, c.2 = BitVec.ofNat 10 u := by
      intro hc
      obtain ⟨h1, h2, h3, u, hu, h4⟩ := ih (i + 1) hc
      refine ⟨by omega, by simp only [List.length_cons]; omega, h3, u, List.mem_cons_of_mem _ hu, h4⟩
    split at h
    · exact tail h
    · rcases List.mem_cons.1 h with rfl | h
      · exact ⟨le_refl _, by simp, ‹_›, v, List.mem_cons_self, rfl⟩
      · exact tail h

theorem ofEntriesFrom_wf (r : Resolution) (i : Nat) (l : List Nat) (hlen : i + l.length ≤ r.tableLength)
    (hval : ∀ v ∈ l, v ≤ r.rawMax) : Memory.wf r (Memory.ofEntriesFrom r i l) = true := by
  induction l generalizing i with
  | nil => rfl
  | cons v l ih =>
    have hrest := ih (i + 1) (by simp only [List.length_cons] at hlen; omega) (fun u hu => hval u (List.mem_cons_of_mem _ hu))
    simp only [Memory.ofEntriesFrom]
    split
    · exact hrest
    · refine (wf_cons r _ _).2 ⟨(cellLegal_iff r _).2 ⟨?_, ?_, ‹_›⟩, fun e he => ?_, hrest⟩
      · simp only [List.length_cons] at hlen
        show i < r.tableLength
        omega
      · have hv : v ≤ r.rawMax := hval v List.mem_cons_self
        have hle := Nat.mod_le v (2 ^ 10)
        simpa using le_trans hle hv
      · have := (mem_ofEntriesFrom r (i + 1) l e he).1
        show i < e.1
        omega

/-- A legal sequence of entries makes a table in canonical form. -/
theorem ofEntries_wf (r : Resolution) (l : List Nat) (h : entriesLegal r l = true) :
    Memory.wf r (Memory.ofEntries r l) = true := by
  simp only [entriesLegal, Bool.and_eq_true, decide_eq_true_eq, List.all_eq_true] at h
  exact ofEntriesFrom_wf r 0 l (by omega) h.2

/-- The table of the state after reset is in canonical form. -/
theorem reset_memory_wf : Memory.wf State.reset.res State.reset.lut = true := rfl

end Sys2Proof.Machine
end

