-- ==== Sys2Proof/Laws/State.lean ====
section
/-! SUPPORT. One lemma per field per update of State, true by rfl, so that no later proof unfolds a record update.
The parentheses in `(rfl)` keep simp from taking these as definitional, which would make the kernel unfold whole states. -/

namespace Sys2Proof.Machine

@[simp] theorem topo_setRunning (s : State) : s.setRunning.topo = s.topo := (rfl)
@[simp] theorem res_setRunning (s : State) : s.setRunning.res = s.res := (rfl)
@[simp] theorem lut_setRunning (s : State) : s.setRunning.lut = s.lut := (rfl)
@[simp] theorem mode_setRunning (s : State) : s.setRunning.mode = .running := (rfl)
@[simp] theorem ovalid_setRunning (s : State) : s.setRunning.ovalid = s.ovalid := (rfl)
@[simp] theorem chA_setRunning (s : State) : s.setRunning.chA = s.chA := (rfl)
@[simp] theorem chB_setRunning (s : State) : s.setRunning.chB = s.chB := (rfl)
@[simp] theorem outa_setRunning (s : State) : s.setRunning.outa = s.outa := (rfl)
@[simp] theorem outb_setRunning (s : State) : s.setRunning.outb = s.outb := (rfl)
@[simp] theorem outI_setRunning (s : State) : s.setRunning.outI = s.outI := (rfl)
@[simp] theorem outQ_setRunning (s : State) : s.setRunning.outQ = s.outQ := (rfl)
@[simp] theorem outU_setRunning (s : State) : s.setRunning.outU = s.outU := (rfl)
@[simp] theorem outV_setRunning (s : State) : s.setRunning.outV = s.outV := (rfl)
@[simp] theorem outW_setRunning (s : State) : s.setRunning.outW = s.outW := (rfl)
@[simp] theorem inputs_setRunning (s : State) : s.setRunning.inputs = s.inputs := (rfl)
@[simp] theorem draws_setRunning (s : State) : s.setRunning.draws = s.draws := (rfl)

@[simp] theorem topo_setUnconfigured (s : State) : s.setUnconfigured.topo = s.topo := (rfl)
@[simp] theorem res_setUnconfigured (s : State) : s.setUnconfigured.res = s.res := (rfl)
@[simp] theorem lut_setUnconfigured (s : State) : s.setUnconfigured.lut = s.lut := (rfl)
@[simp] theorem mode_setUnconfigured (s : State) : s.setUnconfigured.mode = .unconfigured := (rfl)
@[simp] theorem ovalid_setUnconfigured (s : State) : s.setUnconfigured.ovalid = s.ovalid := (rfl)
@[simp] theorem chA_setUnconfigured (s : State) : s.setUnconfigured.chA = s.chA := (rfl)
@[simp] theorem chB_setUnconfigured (s : State) : s.setUnconfigured.chB = s.chB := (rfl)
@[simp] theorem outa_setUnconfigured (s : State) : s.setUnconfigured.outa = s.outa := (rfl)
@[simp] theorem outb_setUnconfigured (s : State) : s.setUnconfigured.outb = s.outb := (rfl)
@[simp] theorem outI_setUnconfigured (s : State) : s.setUnconfigured.outI = s.outI := (rfl)
@[simp] theorem outQ_setUnconfigured (s : State) : s.setUnconfigured.outQ = s.outQ := (rfl)
@[simp] theorem outU_setUnconfigured (s : State) : s.setUnconfigured.outU = s.outU := (rfl)
@[simp] theorem outV_setUnconfigured (s : State) : s.setUnconfigured.outV = s.outV := (rfl)
@[simp] theorem outW_setUnconfigured (s : State) : s.setUnconfigured.outW = s.outW := (rfl)
@[simp] theorem inputs_setUnconfigured (s : State) : s.setUnconfigured.inputs = s.inputs := (rfl)
@[simp] theorem draws_setUnconfigured (s : State) : s.setUnconfigured.draws = s.draws := (rfl)

@[simp] theorem topo_setOvalid (s : State) : s.setOvalid.topo = s.topo := (rfl)
@[simp] theorem res_setOvalid (s : State) : s.setOvalid.res = s.res := (rfl)
@[simp] theorem lut_setOvalid (s : State) : s.setOvalid.lut = s.lut := (rfl)
@[simp] theorem mode_setOvalid (s : State) : s.setOvalid.mode = s.mode := (rfl)
@[simp] theorem ovalid_setOvalid (s : State) : s.setOvalid.ovalid = true := (rfl)
@[simp] theorem chA_setOvalid (s : State) : s.setOvalid.chA = s.chA := (rfl)
@[simp] theorem chB_setOvalid (s : State) : s.setOvalid.chB = s.chB := (rfl)
@[simp] theorem outa_setOvalid (s : State) : s.setOvalid.outa = s.outa := (rfl)
@[simp] theorem outb_setOvalid (s : State) : s.setOvalid.outb = s.outb := (rfl)
@[simp] theorem outI_setOvalid (s : State) : s.setOvalid.outI = s.outI := (rfl)
@[simp] theorem outQ_setOvalid (s : State) : s.setOvalid.outQ = s.outQ := (rfl)
@[simp] theorem outU_setOvalid (s : State) : s.setOvalid.outU = s.outU := (rfl)
@[simp] theorem outV_setOvalid (s : State) : s.setOvalid.outV = s.outV := (rfl)
@[simp] theorem outW_setOvalid (s : State) : s.setOvalid.outW = s.outW := (rfl)
@[simp] theorem inputs_setOvalid (s : State) : s.setOvalid.inputs = s.inputs := (rfl)
@[simp] theorem draws_setOvalid (s : State) : s.setOvalid.draws = s.draws := (rfl)

@[simp] theorem topo_clearOvalid (s : State) : s.clearOvalid.topo = s.topo := (rfl)
@[simp] theorem res_clearOvalid (s : State) : s.clearOvalid.res = s.res := (rfl)
@[simp] theorem lut_clearOvalid (s : State) : s.clearOvalid.lut = s.lut := (rfl)
@[simp] theorem mode_clearOvalid (s : State) : s.clearOvalid.mode = s.mode := (rfl)
@[simp] theorem ovalid_clearOvalid (s : State) : s.clearOvalid.ovalid = false := (rfl)
@[simp] theorem chA_clearOvalid (s : State) : s.clearOvalid.chA = s.chA := (rfl)
@[simp] theorem chB_clearOvalid (s : State) : s.clearOvalid.chB = s.chB := (rfl)
@[simp] theorem outa_clearOvalid (s : State) : s.clearOvalid.outa = s.outa := (rfl)
@[simp] theorem outb_clearOvalid (s : State) : s.clearOvalid.outb = s.outb := (rfl)
@[simp] theorem outI_clearOvalid (s : State) : s.clearOvalid.outI = s.outI := (rfl)
@[simp] theorem outQ_clearOvalid (s : State) : s.clearOvalid.outQ = s.outQ := (rfl)
@[simp] theorem outU_clearOvalid (s : State) : s.clearOvalid.outU = s.outU := (rfl)
@[simp] theorem outV_clearOvalid (s : State) : s.clearOvalid.outV = s.outV := (rfl)
@[simp] theorem outW_clearOvalid (s : State) : s.clearOvalid.outW = s.outW := (rfl)
@[simp] theorem inputs_clearOvalid (s : State) : s.clearOvalid.inputs = s.inputs := (rfl)
@[simp] theorem draws_clearOvalid (s : State) : s.clearOvalid.draws = s.draws := (rfl)

@[simp] theorem topo_consume (s : State) : s.consume.topo = s.topo := (rfl)
@[simp] theorem res_consume (s : State) : s.consume.res = s.res := (rfl)
@[simp] theorem lut_consume (s : State) : s.consume.lut = s.lut := (rfl)
@[simp] theorem mode_consume (s : State) : s.consume.mode = s.mode := (rfl)
@[simp] theorem ovalid_consume (s : State) : s.consume.ovalid = s.ovalid := (rfl)
@[simp] theorem chA_consume (s : State) : s.consume.chA = s.chA := (rfl)
@[simp] theorem chB_consume (s : State) : s.consume.chB = s.chB := (rfl)
@[simp] theorem outa_consume (s : State) : s.consume.outa = s.outa := (rfl)
@[simp] theorem outb_consume (s : State) : s.consume.outb = s.outb := (rfl)
@[simp] theorem outI_consume (s : State) : s.consume.outI = s.outI := (rfl)
@[simp] theorem outQ_consume (s : State) : s.consume.outQ = s.outQ := (rfl)
@[simp] theorem outU_consume (s : State) : s.consume.outU = s.outU := (rfl)
@[simp] theorem outV_consume (s : State) : s.consume.outV = s.outV := (rfl)
@[simp] theorem outW_consume (s : State) : s.consume.outW = s.outW := (rfl)
@[simp] theorem inputs_consume (s : State) : s.consume.inputs = s.inputs.tail := (rfl)
@[simp] theorem draws_consume (s : State) : s.consume.draws = s.draws := (rfl)

@[simp] theorem topo_present (s : State) (p : Ports) : (s.present p).topo = s.topo := (rfl)
@[simp] theorem res_present (s : State) (p : Ports) : (s.present p).res = s.res := (rfl)
@[simp] theorem lut_present (s : State) (p : Ports) : (s.present p).lut = s.lut := (rfl)
@[simp] theorem mode_present (s : State) (p : Ports) : (s.present p).mode = s.mode := (rfl)
@[simp] theorem ovalid_present (s : State) (p : Ports) : (s.present p).ovalid = s.ovalid := (rfl)
@[simp] theorem chA_present (s : State) (p : Ports) : (s.present p).chA = s.chA := (rfl)
@[simp] theorem chB_present (s : State) (p : Ports) : (s.present p).chB = s.chB := (rfl)
@[simp] theorem outa_present (s : State) (p : Ports) : (s.present p).outa = s.outa := (rfl)
@[simp] theorem outb_present (s : State) (p : Ports) : (s.present p).outb = s.outb := (rfl)
@[simp] theorem outI_present (s : State) (p : Ports) : (s.present p).outI = s.outI := (rfl)
@[simp] theorem outQ_present (s : State) (p : Ports) : (s.present p).outQ = s.outQ := (rfl)
@[simp] theorem outU_present (s : State) (p : Ports) : (s.present p).outU = s.outU := (rfl)
@[simp] theorem outV_present (s : State) (p : Ports) : (s.present p).outV = s.outV := (rfl)
@[simp] theorem outW_present (s : State) (p : Ports) : (s.present p).outW = s.outW := (rfl)
@[simp] theorem inputs_present (s : State) (p : Ports) : (s.present p).inputs = p :: s.inputs := (rfl)
@[simp] theorem draws_present (s : State) (p : Ports) : (s.present p).draws = s.draws := (rfl)

@[simp] theorem topo_setChan_A (s : State) (v : Channel) : (s.setChan .A v).topo = s.topo := (rfl)
@[simp] theorem res_setChan_A (s : State) (v : Channel) : (s.setChan .A v).res = s.res := (rfl)
@[simp] theorem lut_setChan_A (s : State) (v : Channel) : (s.setChan .A v).lut = s.lut := (rfl)
@[simp] theorem mode_setChan_A (s : State) (v : Channel) : (s.setChan .A v).mode = s.mode := (rfl)
@[simp] theorem ovalid_setChan_A (s : State) (v : Channel) : (s.setChan .A v).ovalid = s.ovalid := (rfl)
@[simp] theorem chA_setChan_A (s : State) (v : Channel) : (s.setChan .A v).chA = v := (rfl)
@[simp] theorem chB_setChan_A (s : State) (v : Channel) : (s.setChan .A v).chB = s.chB := (rfl)
@[simp] theorem outa_setChan_A (s : State) (v : Channel) : (s.setChan .A v).outa = s.outa := (rfl)
@[simp] theorem outb_setChan_A (s : State) (v : Channel) : (s.setChan .A v).outb = s.outb := (rfl)
@[simp] theorem outI_setChan_A (s : State) (v : Channel) : (s.setChan .A v).outI = s.outI := (rfl)
@[simp] theorem outQ_setChan_A (s : State) (v : Channel) : (s.setChan .A v).outQ = s.outQ := (rfl)
@[simp] theorem outU_setChan_A (s : State) (v : Channel) : (s.setChan .A v).outU = s.outU := (rfl)
@[simp] theorem outV_setChan_A (s : State) (v : Channel) : (s.setChan .A v).outV = s.outV := (rfl)
@[simp] theorem outW_setChan_A (s : State) (v : Channel) : (s.setChan .A v).outW = s.outW := (rfl)
@[simp] theorem inputs_setChan_A (s : State) (v : Channel) : (s.setChan .A v).inputs = s.inputs := (rfl)
@[simp] theorem draws_setChan_A (s : State) (v : Channel) : (s.setChan .A v).draws = s.draws := (rfl)

@[simp] theorem topo_setChan_B (s : State) (v : Channel) : (s.setChan .B v).topo = s.topo := (rfl)
@[simp] theorem res_setChan_B (s : State) (v : Channel) : (s.setChan .B v).res = s.res := (rfl)
@[simp] theorem lut_setChan_B (s : State) (v : Channel) : (s.setChan .B v).lut = s.lut := (rfl)
@[simp] theorem mode_setChan_B (s : State) (v : Channel) : (s.setChan .B v).mode = s.mode := (rfl)
@[simp] theorem ovalid_setChan_B (s : State) (v : Channel) : (s.setChan .B v).ovalid = s.ovalid := (rfl)
@[simp] theorem chA_setChan_B (s : State) (v : Channel) : (s.setChan .B v).chA = s.chA := (rfl)
@[simp] theorem chB_setChan_B (s : State) (v : Channel) : (s.setChan .B v).chB = v := (rfl)
@[simp] theorem outa_setChan_B (s : State) (v : Channel) : (s.setChan .B v).outa = s.outa := (rfl)
@[simp] theorem outb_setChan_B (s : State) (v : Channel) : (s.setChan .B v).outb = s.outb := (rfl)
@[simp] theorem outI_setChan_B (s : State) (v : Channel) : (s.setChan .B v).outI = s.outI := (rfl)
@[simp] theorem outQ_setChan_B (s : State) (v : Channel) : (s.setChan .B v).outQ = s.outQ := (rfl)
@[simp] theorem outU_setChan_B (s : State) (v : Channel) : (s.setChan .B v).outU = s.outU := (rfl)
@[simp] theorem outV_setChan_B (s : State) (v : Channel) : (s.setChan .B v).outV = s.outV := (rfl)
@[simp] theorem outW_setChan_B (s : State) (v : Channel) : (s.setChan .B v).outW = s.outW := (rfl)
@[simp] theorem inputs_setChan_B (s : State) (v : Channel) : (s.setChan .B v).inputs = s.inputs := (rfl)
@[simp] theorem draws_setChan_B (s : State) (v : Channel) : (s.setChan .B v).draws = s.draws := (rfl)

@[simp] theorem topo_setOut_a (s : State) (v : OutReg) : (s.setOut .a v).topo = s.topo := (rfl)
@[simp] theorem res_setOut_a (s : State) (v : OutReg) : (s.setOut .a v).res = s.res := (rfl)
@[simp] theorem lut_setOut_a (s : State) (v : OutReg) : (s.setOut .a v).lut = s.lut := (rfl)
@[simp] theorem mode_setOut_a (s : State) (v : OutReg) : (s.setOut .a v).mode = s.mode := (rfl)
@[simp] theorem ovalid_setOut_a (s : State) (v : OutReg) : (s.setOut .a v).ovalid = s.ovalid := (rfl)
@[simp] theorem chA_setOut_a (s : State) (v : OutReg) : (s.setOut .a v).chA = s.chA := (rfl)
@[simp] theorem chB_setOut_a (s : State) (v : OutReg) : (s.setOut .a v).chB = s.chB := (rfl)
@[simp] theorem outa_setOut_a (s : State) (v : OutReg) : (s.setOut .a v).outa = v := (rfl)
@[simp] theorem outb_setOut_a (s : State) (v : OutReg) : (s.setOut .a v).outb = s.outb := (rfl)
@[simp] theorem outI_setOut_a (s : State) (v : OutReg) : (s.setOut .a v).outI = s.outI := (rfl)
@[simp] theorem outQ_setOut_a (s : State) (v : OutReg) : (s.setOut .a v).outQ = s.outQ := (rfl)
@[simp] theorem outU_setOut_a (s : State) (v : OutReg) : (s.setOut .a v).outU = s.outU := (rfl)
@[simp] theorem outV_setOut_a (s : State) (v : OutReg) : (s.setOut .a v).outV = s.outV := (rfl)
@[simp] theorem outW_setOut_a (s : State) (v : OutReg) : (s.setOut .a v).outW = s.outW := (rfl)
@[simp] theorem inputs_setOut_a (s : State) (v : OutReg) : (s.setOut .a v).inputs = s.inputs := (rfl)
@[simp] theorem draws_setOut_a (s : State) (v : OutReg) : (s.setOut .a v).draws = s.draws := (rfl)

@[simp] theorem topo_setOut_b (s : State) (v : OutReg) : (s.setOut .b v).topo = s.topo := (rfl)
@[simp] theorem res_setOut_b (s : State) (v : OutReg) : (s.setOut .b v).res = s.res := (rfl)
@[simp] theorem lut_setOut_b (s : State) (v : OutReg) : (s.setOut .b v).lut = s.lut := (rfl)
@[simp] theorem mode_setOut_b (s : State) (v : OutReg) : (s.setOut .b v).mode = s.mode := (rfl)
@[simp] theorem ovalid_setOut_b (s : State) (v : OutReg) : (s.setOut .b v).ovalid = s.ovalid := (rfl)
@[simp] theorem chA_setOut_b (s : State) (v : OutReg) : (s.setOut .b v).chA = s.chA := (rfl)
@[simp] theorem chB_setOut_b (s : State) (v : OutReg) : (s.setOut .b v).chB = s.chB := (rfl)
@[simp] theorem outa_setOut_b (s : State) (v : OutReg) : (s.setOut .b v).outa = s.outa := (rfl)
@[simp] theorem outb_setOut_b (s : State) (v : OutReg) : (s.setOut .b v).outb = v := (rfl)
@[simp] theorem outI_setOut_b (s : State) (v : OutReg) : (s.setOut .b v).outI = s.outI := (rfl)
@[simp] theorem outQ_setOut_b (s : State) (v : OutReg) : (s.setOut .b v).outQ = s.outQ := (rfl)
@[simp] theorem outU_setOut_b (s : State) (v : OutReg) : (s.setOut .b v).outU = s.outU := (rfl)
@[simp] theorem outV_setOut_b (s : State) (v : OutReg) : (s.setOut .b v).outV = s.outV := (rfl)
@[simp] theorem outW_setOut_b (s : State) (v : OutReg) : (s.setOut .b v).outW = s.outW := (rfl)
@[simp] theorem inputs_setOut_b (s : State) (v : OutReg) : (s.setOut .b v).inputs = s.inputs := (rfl)
@[simp] theorem draws_setOut_b (s : State) (v : OutReg) : (s.setOut .b v).draws = s.draws := (rfl)

@[simp] theorem topo_setOut_I (s : State) (v : OutReg) : (s.setOut .I v).topo = s.topo := (rfl)
@[simp] theorem res_setOut_I (s : State) (v : OutReg) : (s.setOut .I v).res = s.res := (rfl)
@[simp] theorem lut_setOut_I (s : State) (v : OutReg) : (s.setOut .I v).lut = s.lut := (rfl)
@[simp] theorem mode_setOut_I (s : State) (v : OutReg) : (s.setOut .I v).mode = s.mode := (rfl)
@[simp] theorem ovalid_setOut_I (s : State) (v : OutReg) : (s.setOut .I v).ovalid = s.ovalid := (rfl)
@[simp] theorem chA_setOut_I (s : State) (v : OutReg) : (s.setOut .I v).chA = s.chA := (rfl)
@[simp] theorem chB_setOut_I (s : State) (v : OutReg) : (s.setOut .I v).chB = s.chB := (rfl)
@[simp] theorem outa_setOut_I (s : State) (v : OutReg) : (s.setOut .I v).outa = s.outa := (rfl)
@[simp] theorem outb_setOut_I (s : State) (v : OutReg) : (s.setOut .I v).outb = s.outb := (rfl)
@[simp] theorem outI_setOut_I (s : State) (v : OutReg) : (s.setOut .I v).outI = v := (rfl)
@[simp] theorem outQ_setOut_I (s : State) (v : OutReg) : (s.setOut .I v).outQ = s.outQ := (rfl)
@[simp] theorem outU_setOut_I (s : State) (v : OutReg) : (s.setOut .I v).outU = s.outU := (rfl)
@[simp] theorem outV_setOut_I (s : State) (v : OutReg) : (s.setOut .I v).outV = s.outV := (rfl)
@[simp] theorem outW_setOut_I (s : State) (v : OutReg) : (s.setOut .I v).outW = s.outW := (rfl)
@[simp] theorem inputs_setOut_I (s : State) (v : OutReg) : (s.setOut .I v).inputs = s.inputs := (rfl)
@[simp] theorem draws_setOut_I (s : State) (v : OutReg) : (s.setOut .I v).draws = s.draws := (rfl)

@[simp] theorem topo_setOut_Q (s : State) (v : OutReg) : (s.setOut .Q v).topo = s.topo := (rfl)
@[simp] theorem res_setOut_Q (s : State) (v : OutReg) : (s.setOut .Q v).res = s.res := (rfl)
@[simp] theorem lut_setOut_Q (s : State) (v : OutReg) : (s.setOut .Q v).lut = s.lut := (rfl)
@[simp] theorem mode_setOut_Q (s : State) (v : OutReg) : (s.setOut .Q v).mode = s.mode := (rfl)
@[simp] theorem ovalid_setOut_Q (s : State) (v : OutReg) : (s.setOut .Q v).ovalid = s.ovalid := (rfl)
@[simp] theorem chA_setOut_Q (s : State) (v : OutReg) : (s.setOut .Q v).chA = s.chA := (rfl)
@[simp] theorem chB_setOut_Q (s : State) (v : OutReg) : (s.setOut .Q v).chB = s.chB := (rfl)
@[simp] theorem outa_setOut_Q (s : State) (v : OutReg) : (s.setOut .Q v).outa = s.outa := (rfl)
@[simp] theorem outb_setOut_Q (s : State) (v : OutReg) : (s.setOut .Q v).outb = s.outb := (rfl)
@[simp] theorem outI_setOut_Q (s : State) (v : OutReg) : (s.setOut .Q v).outI = s.outI := (rfl)
@[simp] theorem outQ_setOut_Q (s : State) (v : OutReg) : (s.setOut .Q v).outQ = v := (rfl)
@[simp] theorem outU_setOut_Q (s : State) (v : OutReg) : (s.setOut .Q v).outU = s.outU := (rfl)
@[simp] theorem outV_setOut_Q (s : State) (v : OutReg) : (s.setOut .Q v).outV = s.outV := (rfl)
@[simp] theorem outW_setOut_Q (s : State) (v : OutReg) : (s.setOut .Q v).outW = s.outW := (rfl)
@[simp] theorem inputs_setOut_Q (s : State) (v : OutReg) : (s.setOut .Q v).inputs = s.inputs := (rfl)
@[simp] theorem draws_setOut_Q (s : State) (v : OutReg) : (s.setOut .Q v).draws = s.draws := (rfl)

@[simp] theorem topo_setOut_U (s : State) (v : OutReg) : (s.setOut .U v).topo = s.topo := (rfl)
@[simp] theorem res_setOut_U (s : State) (v : OutReg) : (s.setOut .U v).res = s.res := (rfl)
@[simp] theorem lut_setOut_U (s : State) (v : OutReg) : (s.setOut .U v).lut = s.lut := (rfl)
@[simp] theorem mode_setOut_U (s : State) (v : OutReg) : (s.setOut .U v).mode = s.mode := (rfl)
@[simp] theorem ovalid_setOut_U (s : State) (v : OutReg) : (s.setOut .U v).ovalid = s.ovalid := (rfl)
@[simp] theorem chA_setOut_U (s : State) (v : OutReg) : (s.setOut .U v).chA = s.chA := (rfl)
@[simp] theorem chB_setOut_U (s : State) (v : OutReg) : (s.setOut .U v).chB = s.chB := (rfl)
@[simp] theorem outa_setOut_U (s : State) (v : OutReg) : (s.setOut .U v).outa = s.outa := (rfl)
@[simp] theorem outb_setOut_U (s : State) (v : OutReg) : (s.setOut .U v).outb = s.outb := (rfl)
@[simp] theorem outI_setOut_U (s : State) (v : OutReg) : (s.setOut .U v).outI = s.outI := (rfl)
@[simp] theorem outQ_setOut_U (s : State) (v : OutReg) : (s.setOut .U v).outQ = s.outQ := (rfl)
@[simp] theorem outU_setOut_U (s : State) (v : OutReg) : (s.setOut .U v).outU = v := (rfl)
@[simp] theorem outV_setOut_U (s : State) (v : OutReg) : (s.setOut .U v).outV = s.outV := (rfl)
@[simp] theorem outW_setOut_U (s : State) (v : OutReg) : (s.setOut .U v).outW = s.outW := (rfl)
@[simp] theorem inputs_setOut_U (s : State) (v : OutReg) : (s.setOut .U v).inputs = s.inputs := (rfl)
@[simp] theorem draws_setOut_U (s : State) (v : OutReg) : (s.setOut .U v).draws = s.draws := (rfl)

@[simp] theorem topo_setOut_V (s : State) (v : OutReg) : (s.setOut .V v).topo = s.topo := (rfl)
@[simp] theorem res_setOut_V (s : State) (v : OutReg) : (s.setOut .V v).res = s.res := (rfl)
@[simp] theorem lut_setOut_V (s : State) (v : OutReg) : (s.setOut .V v).lut = s.lut := (rfl)
@[simp] theorem mode_setOut_V (s : State) (v : OutReg) : (s.setOut .V v).mode = s.mode := (rfl)
@[simp] theorem ovalid_setOut_V (s : State) (v : OutReg) : (s.setOut .V v).ovalid = s.ovalid := (rfl)
@[simp] theorem chA_setOut_V (s : State) (v : OutReg) : (s.setOut .V v).chA = s.chA := (rfl)
@[simp] theorem chB_setOut_V (s : State) (v : OutReg) : (s.setOut .V v).chB = s.chB := (rfl)
@[simp] theorem outa_setOut_V (s : State) (v : OutReg) : (s.setOut .V v).outa = s.outa := (rfl)
@[simp] theorem outb_setOut_V (s : State) (v : OutReg) : (s.setOut .V v).outb = s.outb := (rfl)
@[simp] theorem outI_setOut_V (s : State) (v : OutReg) : (s.setOut .V v).outI = s.outI := (rfl)
@[simp] theorem outQ_setOut_V (s : State) (v : OutReg) : (s.setOut .V v).outQ = s.outQ := (rfl)
@[simp] theorem outU_setOut_V (s : State) (v : OutReg) : (s.setOut .V v).outU = s.outU := (rfl)
@[simp] theorem outV_setOut_V (s : State) (v : OutReg) : (s.setOut .V v).outV = v := (rfl)
@[simp] theorem outW_setOut_V (s : State) (v : OutReg) : (s.setOut .V v).outW = s.outW := (rfl)
@[simp] theorem inputs_setOut_V (s : State) (v : OutReg) : (s.setOut .V v).inputs = s.inputs := (rfl)
@[simp] theorem draws_setOut_V (s : State) (v : OutReg) : (s.setOut .V v).draws = s.draws := (rfl)

@[simp] theorem topo_setOut_W (s : State) (v : OutReg) : (s.setOut .W v).topo = s.topo := (rfl)
@[simp] theorem res_setOut_W (s : State) (v : OutReg) : (s.setOut .W v).res = s.res := (rfl)
@[simp] theorem lut_setOut_W (s : State) (v : OutReg) : (s.setOut .W v).lut = s.lut := (rfl)
@[simp] theorem mode_setOut_W (s : State) (v : OutReg) : (s.setOut .W v).mode = s.mode := (rfl)
@[simp] theorem ovalid_setOut_W (s : State) (v : OutReg) : (s.setOut .W v).ovalid = s.ovalid := (rfl)
@[simp] theorem chA_setOut_W (s : State) (v : OutReg) : (s.setOut .W v).chA = s.chA := (rfl)
@[simp] theorem chB_setOut_W (s : State) (v : OutReg) : (s.setOut .W v).chB = s.chB := (rfl)
@[simp] theorem outa_setOut_W (s : State) (v : OutReg) : (s.setOut .W v).outa = s.outa := (rfl)
@[simp] theorem outb_setOut_W (s : State) (v : OutReg) : (s.setOut .W v).outb = s.outb := (rfl)
@[simp] theorem outI_setOut_W (s : State) (v : OutReg) : (s.setOut .W v).outI = s.outI := (rfl)
@[simp] theorem outQ_setOut_W (s : State) (v : OutReg) : (s.setOut .W v).outQ = s.outQ := (rfl)
@[simp] theorem outU_setOut_W (s : State) (v : OutReg) : (s.setOut .W v).outU = s.outU := (rfl)
@[simp] theorem outV_setOut_W (s : State) (v : OutReg) : (s.setOut .W v).outV = s.outV := (rfl)
@[simp] theorem outW_setOut_W (s : State) (v : OutReg) : (s.setOut .W v).outW = v := (rfl)
@[simp] theorem inputs_setOut_W (s : State) (v : OutReg) : (s.setOut .W v).inputs = s.inputs := (rfl)
@[simp] theorem draws_setOut_W (s : State) (v : OutReg) : (s.setOut .W v).draws = s.draws := (rfl)

@[simp] theorem chan_setRunning (s : State) (x : Chan) : s.setRunning.chan x = s.chan x := by cases x <;> rfl
@[simp] theorem out_setRunning (s : State) (x : OutName) : s.setRunning.out x = s.out x := by cases x <;> rfl
@[simp] theorem chan_setUnconfigured (s : State) (x : Chan) : s.setUnconfigured.chan x = s.chan x := by cases x <;> rfl
@[simp] theorem out_setUnconfigured (s : State) (x : OutName) : s.setUnconfigured.out x = s.out x := by cases x <;> rfl
@[simp] theorem chan_setOvalid (s : State) (x : Chan) : s.setOvalid.chan x = s.chan x := by cases x <;> rfl
@[simp] theorem out_setOvalid (s : State) (x : OutName) : s.setOvalid.out x = s.out x := by cases x <;> rfl
@[simp] theorem chan_clearOvalid (s : State) (x : Chan) : s.clearOvalid.chan x = s.chan x := by cases x <;> rfl
@[simp] theorem out_clearOvalid (s : State) (x : OutName) : s.clearOvalid.out x = s.out x := by cases x <;> rfl
@[simp] theorem chan_consume (s : State) (x : Chan) : s.consume.chan x = s.chan x := by cases x <;> rfl
@[simp] theorem out_consume (s : State) (x : OutName) : s.consume.out x = s.out x := by cases x <;> rfl
@[simp] theorem chan_present (s : State) (p : Ports) (x : Chan) : (s.present p).chan x = s.chan x := by cases x <;> rfl
@[simp] theorem out_present (s : State) (p : Ports) (x : OutName) : (s.present p).out x = s.out x := by cases x <;> rfl

@[simp] theorem topo_setChan (s : State) (c : Chan) (v : Channel) : (s.setChan c v).topo = s.topo := by cases c <;> rfl
@[simp] theorem topo_setOut (s : State) (o : OutName) (v : OutReg) : (s.setOut o v).topo = s.topo := by cases o <;> rfl
@[simp] theorem res_setChan (s : State) (c : Chan) (v : Channel) : (s.setChan c v).res = s.res := by cases c <;> rfl
@[simp] theorem res_setOut (s : State) (o : OutName) (v : OutReg) : (s.setOut o v).res = s.res := by cases o <;> rfl
@[simp] theorem lut_setChan (s : State) (c : Chan) (v : Channel) : (s.setChan c v).lut = s.lut := by cases c <;> rfl
@[simp] theorem lut_setOut (s : State) (o : OutName) (v : OutReg) : (s.setOut o v).lut = s.lut := by cases o <;> rfl
@[simp] theorem mode_setChan (s : State) (c : Chan) (v : Channel) : (s.setChan c v).mode = s.mode := by cases c <;> rfl
@[simp] theorem mode_setOut (s : State) (o : OutName) (v : OutReg) : (s.setOut o v).mode = s.mode := by cases o <;> rfl
@[simp] theorem ovalid_setChan (s : State) (c : Chan) (v : Channel) : (s.setChan c v).ovalid = s.ovalid := by cases c <;> rfl
@[simp] theorem ovalid_setOut (s : State) (o : OutName) (v : OutReg) : (s.setOut o v).ovalid = s.ovalid := by cases o <;> rfl
@[simp] theorem inputs_setChan (s : State) (c : Chan) (v : Channel) : (s.setChan c v).inputs = s.inputs := by cases c <;> rfl
@[simp] theorem inputs_setOut (s : State) (o : OutName) (v : OutReg) : (s.setOut o v).inputs = s.inputs := by cases o <;> rfl
@[simp] theorem draws_setChan (s : State) (c : Chan) (v : Channel) : (s.setChan c v).draws = s.draws := by cases c <;> rfl
@[simp] theorem draws_setOut (s : State) (o : OutName) (v : OutReg) : (s.setOut o v).draws = s.draws := by cases o <;> rfl

@[simp] theorem chan_setOut (s : State) (o : OutName) (v : OutReg) (c : Chan) : (s.setOut o v).chan c = s.chan c := by
  cases o <;> cases c <;> rfl

@[simp] theorem out_setChan (s : State) (c : Chan) (v : Channel) (o : OutName) : (s.setChan c v).out o = s.out o := by
  cases c <;> cases o <;> rfl

@[simp] theorem chan_setChan (s : State) (c d : Chan) (v : Channel) :
    (s.setChan c v).chan d = if d = c then v else s.chan d := by
  cases c <;> cases d <;> rfl

@[simp] theorem out_setOut (s : State) (o p : OutName) (v : OutReg) :
    (s.setOut o v).out p = if p = o then v else s.out p := by
  cases o <;> cases p <;> rfl

theorem chan_A (s : State) : s.chan .A = s.chA := rfl
theorem chan_B (s : State) : s.chan .B = s.chB := rfl
theorem out_a (s : State) : s.out .a = s.outa := rfl
theorem out_b (s : State) : s.out .b = s.outb := rfl
theorem out_I (s : State) : s.out .I = s.outI := rfl
theorem out_Q (s : State) : s.out .Q = s.outQ := rfl
theorem out_U (s : State) : s.out .U = s.outU := rfl
theorem out_V (s : State) : s.out .V = s.outV := rfl
theorem out_W (s : State) : s.out .W = s.outW := rfl

/-- Two states are equal when their parameters, flags, channels, outputs and the model's own fields are. -/
theorem State.ext_registers {s t : State} (htopo : t.topo = s.topo) (hres : t.res = s.res) (hlut : t.lut = s.lut)
    (hmode : t.mode = s.mode) (hov : t.ovalid = s.ovalid) (hch : ∀ c, t.chan c = s.chan c)
    (hout : ∀ o, t.out o = s.out o) (hin : t.inputs = s.inputs) (hdr : t.draws = s.draws) : t = s := by
  have hA := hch .A
  have hB := hch .B
  have ha := hout .a
  have hb := hout .b
  have hI := hout .I
  have hQ := hout .Q
  have hU := hout .U
  have hV := hout .V
  have hW := hout .W
  cases s
  cases t
  simp only [chan_A, chan_B, out_a, out_b, out_I, out_Q, out_U, out_V, out_W] at *
  simp [*]

end Sys2Proof.Machine
end

