-- ==== Sys2Proof/Laws/Ops.lean ====
section
/-! SUPPORT. One lemma per shared operation, saying once everything it can do. -/

namespace Sys2Proof.Machine

/-! ### Reading one register through an operation -/

theorem acc_eq (s : State) (c : Chan) : s.acc c = (s.chan c).acc := rfl
theorem tw_eq (s : State) (c : Chan) : s.tw c = (s.chan c).tw := rfl
theorem raw_eq (s : State) (o : OutName) : s.raw o = (s.out o).raw := rfl
theorem smp_eq (s : State) (o : OutName) : s.smp o = (s.out o).smp := rfl

/-- The same table read: equal resolution and table give equal entries. -/
theorem sampleAt_congr {s t : State} (hres : t.res = s.res) (hlut : t.lut = s.lut) (k : Nat) :
    t.sampleAt k = s.sampleAt k := by
  rw [State.sampleAt, State.sampleAt, hres, hlut]

/-! ### PA.LOAD and PA.ADVANCE -/

@[simp] theorem chan_paLoad (s : State) (c d : Chan) (t p : Word) :
    (s.paLoad c t p).chan d = if d = c then { tw := t, acc := p } else s.chan d := by
  simp [State.paLoad]

@[simp] theorem out_paLoad (s : State) (c : Chan) (t p : Word) (o : OutName) :
    (s.paLoad c t p).out o = s.out o := by
  simp [State.paLoad]

@[simp] theorem chan_paAdvance (s : State) (c d : Chan) :
    (s.paAdvance c).chan d = if d = c then { tw := s.tw c, acc := s.acc c + s.tw c } else s.chan d := by
  simp [State.paAdvance]

@[simp] theorem out_paAdvance (s : State) (c : Chan) (o : OutName) : (s.paAdvance c).out o = s.out o := by
  simp [State.paAdvance]

/-! PA.LOAD and PA.ADVANCE touch nothing but the channel. -/

@[simp] theorem topo_paLoad (s : State) (c : Chan) (t p : Word) : (s.paLoad c t p).topo = s.topo := by simp [State.paLoad]
@[simp] theorem res_paLoad (s : State) (c : Chan) (t p : Word) : (s.paLoad c t p).res = s.res := by simp [State.paLoad]
@[simp] theorem lut_paLoad (s : State) (c : Chan) (t p : Word) : (s.paLoad c t p).lut = s.lut := by simp [State.paLoad]
@[simp] theorem mode_paLoad (s : State) (c : Chan) (t p : Word) : (s.paLoad c t p).mode = s.mode := by simp [State.paLoad]
@[simp] theorem ovalid_paLoad (s : State) (c : Chan) (t p : Word) : (s.paLoad c t p).ovalid = s.ovalid := by simp [State.paLoad]
@[simp] theorem inputs_paLoad (s : State) (c : Chan) (t p : Word) : (s.paLoad c t p).inputs = s.inputs := by simp [State.paLoad]
@[simp] theorem draws_paLoad (s : State) (c : Chan) (t p : Word) : (s.paLoad c t p).draws = s.draws := by simp [State.paLoad]

@[simp] theorem topo_paAdvance (s : State) (c : Chan) : (s.paAdvance c).topo = s.topo := by simp [State.paAdvance]
@[simp] theorem res_paAdvance (s : State) (c : Chan) : (s.paAdvance c).res = s.res := by simp [State.paAdvance]
@[simp] theorem lut_paAdvance (s : State) (c : Chan) : (s.paAdvance c).lut = s.lut := by simp [State.paAdvance]
@[simp] theorem mode_paAdvance (s : State) (c : Chan) : (s.paAdvance c).mode = s.mode := by simp [State.paAdvance]
@[simp] theorem ovalid_paAdvance (s : State) (c : Chan) : (s.paAdvance c).ovalid = s.ovalid := by simp [State.paAdvance]
@[simp] theorem inputs_paAdvance (s : State) (c : Chan) : (s.paAdvance c).inputs = s.inputs := by simp [State.paAdvance]
@[simp] theorem draws_paAdvance (s : State) (c : Chan) : (s.paAdvance c).draws = s.draws := by simp [State.paAdvance]

/-! ### SLE.LOOKUP -/

@[simp] theorem chan_sleLookup (s : State) (o : OutputSpec) (c : Chan) : (s.sleLookup o).chan c = s.chan c := by
  simp [State.sleLookup]

@[simp] theorem out_sleLookup (s : State) (o : OutputSpec) (p : OutName) :
    (s.sleLookup o).out p =
      if p = o.name then
        { raw := s.rawAt (withOffset (s.acc o.chan) o.offset)
          smp := toSigned s.res (s.rawAt (withOffset (s.acc o.chan) o.offset)) }
      else s.out p := by
  simp [State.sleLookup]

/-! SLE.LOOKUP touches nothing but the output. -/

@[simp] theorem topo_sleLookup (s : State) (o : OutputSpec) : (s.sleLookup o).topo = s.topo := by simp [State.sleLookup]
@[simp] theorem res_sleLookup (s : State) (o : OutputSpec) : (s.sleLookup o).res = s.res := by simp [State.sleLookup]
@[simp] theorem lut_sleLookup (s : State) (o : OutputSpec) : (s.sleLookup o).lut = s.lut := by simp [State.sleLookup]
@[simp] theorem mode_sleLookup (s : State) (o : OutputSpec) : (s.sleLookup o).mode = s.mode := by simp [State.sleLookup]
@[simp] theorem ovalid_sleLookup (s : State) (o : OutputSpec) : (s.sleLookup o).ovalid = s.ovalid := by simp [State.sleLookup]
@[simp] theorem inputs_sleLookup (s : State) (o : OutputSpec) : (s.sleLookup o).inputs = s.inputs := by simp [State.sleLookup]
@[simp] theorem draws_sleLookup (s : State) (o : OutputSpec) : (s.sleLookup o).draws = s.draws := by simp [State.sleLookup]

/-- The raw sample of a phase is the table entry of its top bits (R76, R77). -/
theorem rawAt_eq (s : State) (p : Word) : s.rawAt p = Memory.read s.res s.lut (p.toNat / 2 ^ s.res.shift) := by
  simp [State.rawAt, State.sampleAt, indexFor_eq]

/-! A phase plus an offset, as numbers (R6, R78). These are proved apart from `rfl` on purpose: a definitional check that meets a
phase plus a large literal makes the kernel count up to the literal. -/

@[simp] theorem withOffset_zero (p : Word) : withOffset p 0 = p := BitVec.add_zero p

@[simp] theorem withOffset_ofNat_zero (p : Word) : withOffset p 0#32 = p := BitVec.add_zero p

theorem toNat_withOffset (p off : Word) : (withOffset p off).toNat = (p.toNat + off.toNat) % 2 ^ 32 := by
  rw [withOffset, BitVec.toNat_add]

theorem off90_toNat : off90.toNat = 2 ^ 30 := by decide

theorem off120_toNat : off120.toNat = 1431655765 := by decide

theorem off240_toNat : off240.toNat = 2863311531 := by decide

theorem withOffset_off90 (p : Word) : (withOffset p off90).toNat = (p.toNat + 2 ^ 30) % 2 ^ 32 := by
  rw [toNat_withOffset, off90_toNat]

theorem withOffset_off120 (p : Word) : (withOffset p off120).toNat = (p.toNat + 1431655765) % 2 ^ 32 := by
  rw [toNat_withOffset, off120_toNat]

theorem withOffset_off240 (p : Word) : (withOffset p off240).toNat = (p.toNat + 2863311531) % 2 ^ 32 := by
  rw [toNat_withOffset, off240_toNat]

/-! ### The lifecycle gate -/

/-- What UPDATE's gate can answer: the given state when running, the fault otherwise, never a refusal. -/
theorem whenRunning_eq_next (s t u : State) : s.whenRunning u = .next t ↔ s.mode = .running ∧ t = u := by
  cases h : s.mode <;> simp [State.whenRunning, h, eq_comm]

theorem whenRunning_eq_fault (s u : State) (e : Fault) :
    s.whenRunning u = .fault e ↔ s.mode = .unconfigured ∧ e = .updateBeforeBegin := by
  cases h : s.mode <;> simp [State.whenRunning, h, eq_comm]

theorem whenRunning_ne_refused (s u : State) (e : Refusal) : s.whenRunning u ≠ .refused e := by
  cases h : s.mode <;> simp [State.whenRunning, h]

/-! ### What reset leaves unspecified -/

/-- The free values are values of their registers' types (R24). -/
theorem freeRawValue_lt (r : Resolution) (bits : Raw) : (freeRawValue r bits).toNat < 2 ^ r.bits := by
  cases r <;> simp only [freeRawValue, Resolution.bits, BitVec.toNat_ofNat] <;> omega

theorem freeSmpValue_range (r : Resolution) (bits : BitVec 10) :
    -(2 : Int) ^ (r.bits - 1) ≤ freeSmpValue r bits ∧ freeSmpValue r bits < (2 : Int) ^ (r.bits - 1) := by
  cases r
  · exact ⟨BitVec.le_toInt (BitVec.ofNat 8 bits.toNat), BitVec.toInt_lt (x := BitVec.ofNat 8 bits.toNat)⟩
  · exact ⟨BitVec.le_toInt (BitVec.ofNat 10 bits.toNat), BitVec.toInt_lt (x := BitVec.ofNat 10 bits.toNat)⟩

/-- RESET's draw touches the registers of the instance and the counter, nothing else. -/
theorem unspecify_frame (s : State) :
    s.unspecify.topo = s.topo ∧ s.unspecify.res = s.res ∧ s.unspecify.lut = s.lut ∧
    s.unspecify.mode = s.mode ∧ s.unspecify.ovalid = s.ovalid ∧
    s.unspecify.inputs = s.inputs ∧ s.unspecify.draws = s.draws + 1 := by
  cases h : s.topo <;>
    simp [State.unspecify, h, Topology.channels, Topology.outputs, State.drawChan, State.drawOut]

@[simp] theorem topo_unspecify (s : State) : s.unspecify.topo = s.topo := (unspecify_frame s).1
@[simp] theorem res_unspecify (s : State) : s.unspecify.res = s.res := (unspecify_frame s).2.1
@[simp] theorem lut_unspecify (s : State) : s.unspecify.lut = s.lut := (unspecify_frame s).2.2.1
@[simp] theorem mode_unspecify (s : State) : s.unspecify.mode = s.mode := (unspecify_frame s).2.2.2.1
@[simp] theorem ovalid_unspecify (s : State) : s.unspecify.ovalid = s.ovalid := (unspecify_frame s).2.2.2.2.1
@[simp] theorem inputs_unspecify (s : State) : s.unspecify.inputs = s.inputs := (unspecify_frame s).2.2.2.2.2.1
@[simp] theorem draws_unspecify (s : State) : s.unspecify.draws = s.draws + 1 := (unspecify_frame s).2.2.2.2.2.2

/-- A channel after the draw: free values if the instance has it, unchanged otherwise. -/
theorem chan_unspecify (s : State) (c : Chan) :
    s.unspecify.chan c =
      if c ∈ s.topo.channels then { tw := Config.freeTw s.draws c, acc := Config.freeAcc s.draws c } else s.chan c := by
  cases h : s.topo <;> cases c <;>
    simp [State.unspecify, h, Topology.channels, Topology.outputs, State.drawChan, State.drawOut, State.setChan, State.setOut, State.chan]

/-- An output after the draw: free values of its types if the instance has it, unchanged otherwise. -/
theorem out_unspecify (s : State) (o : OutName) :
    s.unspecify.out o =
      if o ∈ s.topo.outputs.map OutputSpec.name then
        { raw := freeRawValue s.res (Config.freeRaw s.draws o), smp := freeSmpValue s.res (Config.freeSmp s.draws o) }
      else s.out o := by
  cases h : s.topo <;> cases o <;>
    simp [State.unspecify, h, Topology.channels, Topology.outputs, State.drawChan, State.drawOut, State.setChan, State.setOut, State.out]

/-! ### The command port -/

theorem presented_cons (s : State) (p : Ports) (ps : List Ports) (h : s.inputs = p :: ps) : s.presented = p := by
  simp [State.presented, h]

theorem presented_nil (s : State) (h : s.inputs = []) : s.presented = Ports.idle := by
  simp [State.presented, h]

/-- A step, split into its two outcomes. -/
theorem step_cases (s : State) :
    (s.paramsLegal = true ∧ step s = exec (decodePorts s.topo s.presented) s.consume) ∨
    (s.paramsLegal = false ∧ step s = .refused .illegalParameter) := by
  cases h : s.paramsLegal <;> simp [step, h]

end Sys2Proof.Machine
end

