-- ==== Sys2Proof/Laws/Exec.lean ====
section
/-! SUPPORT. What every command leaves alone, and that no command reads the queue of port samples. -/

namespace Sys2Proof.Machine

/-! ### The queue passes through every operation -/

theorem paLoad_inputs (s : State) (c : Chan) (t p : Word) (x : List Ports) :
    ({ s with inputs := x } : State).paLoad c t p = { s.paLoad c t p with inputs := x } := by
  cases c <;> rfl

theorem paAdvance_inputs (s : State) (c : Chan) (x : List Ports) :
    ({ s with inputs := x } : State).paAdvance c = { s.paAdvance c with inputs := x } := by
  cases c <;> rfl

theorem sleLookup_inputs (s : State) (o : OutputSpec) (x : List Ports) :
    ({ s with inputs := x } : State).sleLookup o = { s.sleLookup o with inputs := x } := by
  obtain ⟨n, c, off⟩ := o
  cases n <;> cases c <;> rfl

theorem setOvalid_inputs (s : State) (x : List Ports) :
    ({ s with inputs := x } : State).setOvalid = { s.setOvalid with inputs := x } := rfl

theorem unspecify_inputs (s : State) (x : List Ports) :
    ({ s with inputs := x } : State).unspecify = { s.unspecify with inputs := x } := by
  cases s with
  | mk topo => cases topo <;> rfl

theorem whenRunning_inputs (s t : State) (x : List Ports) :
    ({ s with inputs := x } : State).whenRunning { t with inputs := x } =
      match s.whenRunning t with
      | .next u    => .next { u with inputs := x }
      | .fault e   => .fault e
      | .refused e => .refused e := by
  cases h : s.mode <;> simp [State.whenRunning, h]

/-- A command does to a state with another queue what it does to the state, the queue set aside. -/
theorem exec_inputs (i : Instr) (s : State) (x : List Ports) :
    exec i { s with inputs := x } =
      match exec i s with
      | .next t    => .next { t with inputs := x }
      | .fault e   => .fault e
      | .refused e => .refused e := by
  cases i <;>
    simp only [exec, execReset, execNop, execBegin1ch, execUpdate1ch, execBegin2ch, execUpdate2ch, execBeginIq, execUpdateIq,
      execBegin3ph, execUpdate3ph, execReserved, paLoad_inputs, paAdvance_inputs, sleLookup_inputs, setOvalid_inputs,
      unspecify_inputs, whenRunning_inputs]
  all_goals rfl

/-! ### The parameters -/

/-- No command writes a parameter of the instance or the queue. -/
theorem exec_frame (i : Instr) (s t : State) (h : exec i s = .next t) :
    t.topo = s.topo ∧ t.res = s.res ∧ t.lut = s.lut ∧ t.inputs = s.inputs := by
  cases i <;>
    simp only [exec, execReset, execNop, execBegin1ch, execUpdate1ch, execBegin2ch, execUpdate2ch, execBeginIq, execUpdateIq,
      execBegin3ph, execUpdate3ph, execReserved, whenRunning_eq_next, Host.Outcome.next.injEq, reduceCtorEq] at h
  case reset => subst h; simp
  case nop => subst h; simp
  all_goals first | subst h | obtain ⟨-, rfl⟩ := h
  all_goals simp

end Sys2Proof.Machine
end

