-- ==== Sys2Proof/Laws/PerInstr.lean ====
section
/-! SUPPORT. Statements made for every constructor of Instr. `OpcodeRow`: the transaction the encoder gives an instruction lies in
the instruction's own row of the opcode map (R47), mask and match, and has its format's width (R48). -/

namespace Sys2Proof.Laws

/-- The row of the opcode map (R47): mask and match over the key. -/
def rowOf : Instr → Key × Key
  | .reset            => (0x10, 0x10)
  | .nop              => (0x13, 0x00)
  | .begin1ch _ _     => (0x1F, 0x01)
  | .update1ch        => (0x1F, 0x02)
  | .begin2ch _ _ _ _ => (0x1F, 0x05)
  | .update2ch        => (0x1F, 0x06)
  | .beginIq _ _      => (0x1F, 0x09)
  | .updateIq         => (0x1F, 0x0A)
  | .begin3ph _ _     => (0x1F, 0x0D)
  | .update3ph        => (0x1F, 0x0E)
  | .reserved         => (0x13, 0x03)

namespace OpcodeRow

/-- On every topology, the encoded key selects the instruction's row and the transaction is as wide as its format. -/
def Statement (i : Instr) : Prop :=
  ∀ t : Topology, (encode t i).key &&& (rowOf i).1 = (rowOf i).2 ∧ (encode t i).width = i.format.width

theorem reset : Statement .reset := by intro t; cases t <;> decide

theorem nop : Statement .nop := by intro t; cases t <;> decide

theorem begin1ch (twA phA : Word) : Statement (.begin1ch twA phA) := by intro t; simp [encode, rowOf, Transaction.width, Instr.format, Format.width, Format.operandCount]

theorem update1ch : Statement .update1ch := by intro t; cases t <;> decide

theorem begin2ch (twA phA twB phB : Word) : Statement (.begin2ch twA phA twB phB) := by intro t; simp [encode, rowOf, Transaction.width, Instr.format, Format.width, Format.operandCount]

theorem update2ch : Statement .update2ch := by intro t; cases t <;> decide

theorem beginIq (twA phA : Word) : Statement (.beginIq twA phA) := by intro t; simp [encode, rowOf, Transaction.width, Instr.format, Format.width, Format.operandCount]

theorem updateIq : Statement .updateIq := by intro t; cases t <;> decide

theorem begin3ph (twA phA : Word) : Statement (.begin3ph twA phA) := by intro t; simp [encode, rowOf, Transaction.width, Instr.format, Format.width, Format.operandCount]

theorem update3ph : Statement .update3ph := by intro t; cases t <;> decide

theorem reserved : Statement .reserved := by intro t; cases t <;> decide

end OpcodeRow

end Sys2Proof.Laws
end

