-- ==== Sys2Proof/Machine/Recovery.lean ====
section
/-! DEFINITION. The way out after an UPDATE in UNCONFIGURED (R112, 93_implementation_defined.md U18). `exec` and `step` stop at that
UPDATE with a fault, as R106 has it; this file says what the block still holds if its host goes on nevertheless, and how a reset, or
a BEGIN alone, brings its registers back. The form is the model's (log entry 15). -/

namespace Sys2Proof.Machine

/-! ### Registers without a value -/

/-- `mode` and `ovalid` become unspecified beside every data register (R106). -/
def State.unspecifyAll (s : State) : State :=
  { s.unspecify with
    mode := if Config.freeRunning s.draws then .running else .unconfigured
    ovalid := Config.freeOvalid s.draws }

/-- `ovalid` and the output registers become unspecified (R112). -/
def State.unspecifyOutputs (s : State) : State :=
  let u := s.topo.outputs.foldl (fun u o => u.drawOut o.name) s
  { u with ovalid := Config.freeOvalid s.draws, draws := s.draws + 1 }

/-! ### How much of an instance the spec still promises -/

/-- What the spec promises of the registers. -/
inductive Standing where
  /-- everything the rules of the commands give -/
  | sound
  /-- nothing, since an UPDATE in UNCONFIGURED (R106) -/
  | lost
  /-- `tw`, `acc` and `mode`, since a BEGIN that no reset has preceded; not `ovalid`, `raw`, `smp` (R112, U18) -/
  | restored
deriving DecidableEq, Repr

/-- The standing after a command that `exec` completes: a reset makes it sound, a BEGIN restores what was lost (R112). -/
def Standing.after (k : Standing) : Instr → Standing
  | .reset => .sound
  | .begin1ch _ _ | .begin2ch _ _ _ _ | .beginIq _ _ | .begin3ph _ _ =>
    match k with
    | .sound => .sound
    | .lost | .restored => .restored
  | .nop | .update1ch | .update2ch | .updateIq | .update3ph | .reserved => k

/-- An instance whose host may go on after the fault. -/
structure Aftermath where
  standing : Standing
  state    : State
deriving DecidableEq, Repr

/-- The registers of `s` that standing `k` promises nothing of become unspecified, at every command anew. -/
def Standing.settle (k : Standing) (s : State) : Aftermath :=
  match k with
  | .sound    => { standing := .sound, state := s }
  | .lost     => { standing := .lost, state := s.unspecifyAll }
  | .restored => { standing := .restored, state := s.unspecifyOutputs }

/-- A command, past the fault of R106: `exec`, but where `exec` stops with that fault the instance goes on with no register promised. -/
def Aftermath.perform (i : Instr) (c : Aftermath) : Host.Outcome Aftermath Fault Refusal :=
  match exec i c.state with
  | .next t                    => .next ((c.standing.after i).settle t)
  | .fault .updateBeforeBegin  => .next (Standing.lost.settle c.state)
  | .refused e                 => .refused e

/-- A stream of commands, past the fault; only a refusal ends it. -/
def Aftermath.performAll : List Instr → Aftermath → Host.Outcome Aftermath Fault Refusal
  | [], c => .next c
  | i :: is, c =>
    match c.perform i with
    | .next d    => d.performAll is
    | .fault e   => .fault e
    | .refused e => .refused e

/-- One step (R45), past the fault. -/
def Aftermath.step (c : Aftermath) : Host.Outcome Aftermath Fault Refusal :=
  if c.state.paramsLegal then
    Aftermath.perform (decodePorts c.state.topo c.state.presented) { c with state := c.state.consume }
  else .refused .illegalParameter

/-- `n` steps, past the fault. -/
def Aftermath.runSteps : Nat → Aftermath → Host.Outcome Aftermath Fault Refusal
  | 0, c => .next c
  | n + 1, c =>
    match c.step with
    | .next d    => d.runSteps n
    | .fault e   => .fault e
    | .refused e => .refused e

end Sys2Proof.Machine
end

