-- ==== Sys2Proof/Laws/Recovery.lean ====
section
/-! SUPPORT. What the way out after an UPDATE in UNCONFIGURED does (R106, R112, U18): one lemma per operation, then the two ways out. -/

namespace Sys2Proof.Machine

/-! ### Registers without a value -/

/-- The draw of everything touches the registers and the counter, nothing else. -/
theorem unspecifyAll_frame (s : State) :
    s.unspecifyAll.topo = s.topo ∧ s.unspecifyAll.res = s.res ∧ s.unspecifyAll.lut = s.lut ∧
    s.unspecifyAll.inputs = s.inputs ∧ s.unspecifyAll.draws = s.draws + 1 :=
  ⟨topo_unspecify s, res_unspecify s, lut_unspecify s, inputs_unspecify s, draws_unspecify s⟩

/-- The draw of the outputs touches them, `ovalid` and the counter, nothing else. -/
theorem unspecifyOutputs_frame (s : State) :
    s.unspecifyOutputs.topo = s.topo ∧ s.unspecifyOutputs.res = s.res ∧ s.unspecifyOutputs.lut = s.lut ∧
    s.unspecifyOutputs.inputs = s.inputs ∧ s.unspecifyOutputs.draws = s.draws + 1 ∧
    s.unspecifyOutputs.mode = s.mode ∧ ∀ c, s.unspecifyOutputs.chan c = s.chan c := by
  refine ⟨?_, ?_, ?_, ?_, rfl, ?_, fun c => ?_⟩ <;> cases h : s.topo <;> try cases c
  all_goals simp [State.unspecifyOutputs, h, Topology.outputs, State.drawOut, State.setOut, State.chan]

@[simp] theorem topo_unspecifyAll (s : State) : s.unspecifyAll.topo = s.topo := (unspecifyAll_frame s).1
@[simp] theorem res_unspecifyAll (s : State) : s.unspecifyAll.res = s.res := (unspecifyAll_frame s).2.1
@[simp] theorem lut_unspecifyAll (s : State) : s.unspecifyAll.lut = s.lut := (unspecifyAll_frame s).2.2.1
@[simp] theorem inputs_unspecifyAll (s : State) : s.unspecifyAll.inputs = s.inputs := (unspecifyAll_frame s).2.2.2.1
@[simp] theorem draws_unspecifyAll (s : State) : s.unspecifyAll.draws = s.draws + 1 := (unspecifyAll_frame s).2.2.2.2

@[simp] theorem topo_unspecifyOutputs (s : State) : s.unspecifyOutputs.topo = s.topo := (unspecifyOutputs_frame s).1
@[simp] theorem res_unspecifyOutputs (s : State) : s.unspecifyOutputs.res = s.res := (unspecifyOutputs_frame s).2.1
@[simp] theorem lut_unspecifyOutputs (s : State) : s.unspecifyOutputs.lut = s.lut := (unspecifyOutputs_frame s).2.2.1
@[simp] theorem inputs_unspecifyOutputs (s : State) : s.unspecifyOutputs.inputs = s.inputs := (unspecifyOutputs_frame s).2.2.2.1
@[simp] theorem draws_unspecifyOutputs (s : State) : s.unspecifyOutputs.draws = s.draws + 1 := (unspecifyOutputs_frame s).2.2.2.2.1
@[simp] theorem mode_unspecifyOutputs (s : State) : s.unspecifyOutputs.mode = s.mode := (unspecifyOutputs_frame s).2.2.2.2.2.1
@[simp] theorem chan_unspecifyOutputs (s : State) (c : Chan) : s.unspecifyOutputs.chan c = s.chan c :=
  (unspecifyOutputs_frame s).2.2.2.2.2.2 c
@[simp] theorem ovalid_unspecifyOutputs (s : State) : s.unspecifyOutputs.ovalid = Config.freeOvalid s.draws := rfl

/-- An output after the draw: free values of its types if the instance has it, unchanged otherwise. -/
theorem out_unspecifyOutputs (s : State) (o : OutName) :
    s.unspecifyOutputs.out o =
      if o ∈ s.topo.outputs.map OutputSpec.name then
        { raw := freeRawValue s.res (Config.freeRaw s.draws o), smp := freeSmpValue s.res (Config.freeSmp s.draws o) }
      else s.out o := by
  cases h : s.topo <;> cases o <;>
    simp [State.unspecifyOutputs, h, Topology.outputs, State.drawOut, State.setOut, State.out]

/-! ### One command past the fault -/

@[simp] theorem standing_settle (k : Standing) (s : State) : (k.settle s).standing = k := by cases k <;> rfl

/-- Settling keeps the parameters and the queue, whatever the standing. -/
theorem settle_frame (k : Standing) (s : State) :
    s.sameParams (k.settle s).state ∧ (k.settle s).state.inputs = s.inputs := by
  cases k <;> simp [Standing.settle, State.sameParams]

/-- Everything a command can do past the fault: what `exec` does, settled; or the loss of every register, where `exec` faults. -/
theorem perform_cases {i : Instr} {c d : Aftermath} (h : c.perform i = .next d) :
    (∃ t, exec i c.state = .next t ∧ d = (c.standing.after i).settle t) ∨
    (exec i c.state = .fault .updateBeforeBegin ∧ d = Standing.lost.settle c.state) := by
  unfold Aftermath.perform at h
  split at h
  · exact .inl ⟨_, ‹_›, (Host.Outcome.next.inj h).symm⟩
  · exact .inr ⟨‹_›, (Host.Outcome.next.inj h).symm⟩
  · cases h

theorem perform_of_next {i : Instr} {c : Aftermath} {t : State} (h : exec i c.state = .next t) :
    c.perform i = .next ((c.standing.after i).settle t) := by
  simp [Aftermath.perform, h]

theorem perform_of_fault {i : Instr} {c : Aftermath} (h : exec i c.state = .fault .updateBeforeBegin) :
    c.perform i = .next (Standing.lost.settle c.state) := by
  simp [Aftermath.perform, h]

/-- No command writes a parameter or the queue, past the fault either. -/
theorem perform_frame {i : Instr} {c d : Aftermath} (h : c.perform i = .next d) :
    c.state.sameParams d.state ∧ d.state.inputs = c.state.inputs := by
  obtain ⟨t, ht, rfl⟩ | ⟨-, rfl⟩ := perform_cases h
  · obtain ⟨h1, h2, h3, h4⟩ := exec_frame i _ t ht
    obtain ⟨⟨g1, g2, g3⟩, g4⟩ := settle_frame (c.standing.after i) t
    exact ⟨⟨g1.trans h1, g2.trans h2, g3.trans h3⟩, g4.trans h4⟩
  · exact settle_frame .lost c.state

/-- While nothing is lost, a command that completes does what `exec` does. -/
theorem perform_sound {i : Instr} {s t : State} (h : exec i s = .next t) :
    Aftermath.perform i { standing := .sound, state := s } = .next { standing := .sound, state := t } := by
  rw [perform_of_next (c := { standing := .sound, state := s }) h]
  cases i <;> rfl

/-- Nor does a stream do anything else while it completes: past the fault and up to it the block is one. -/
theorem performAll_sound {is : List Instr} {s t : State} (h : execAll is s = .next t) :
    Aftermath.performAll is { standing := .sound, state := s } = .next { standing := .sound, state := t } := by
  induction is generalizing s with
  | nil =>
    obtain rfl := Host.Outcome.next.inj h
    rfl
  | cons i is ih =>
    unfold execAll at h
    split at h
    · simp only [Aftermath.performAll, perform_sound ‹_›, ih h]
    · cases h
    · cases h

/-- The same for the steps of a run. -/
theorem aftermath_step_sound {s t : State} (h : step s = .next t) :
    Aftermath.step { standing := .sound, state := s } = .next { standing := .sound, state := t } := by
  obtain ⟨hl, hs⟩ | ⟨-, hs⟩ := step_cases s
  · simp only [Aftermath.step, hl, if_true]
    exact perform_sound (hs ▸ h)
  · rw [hs] at h
    cases h

theorem aftermath_runSteps_sound {n : Nat} {s t : State} (h : runSteps n s = .next t) :
    Aftermath.runSteps n { standing := .sound, state := s } = .next { standing := .sound, state := t } := by
  induction n generalizing s with
  | zero =>
    obtain rfl := Host.Outcome.next.inj h
    rfl
  | succ n ih =>
    unfold runSteps at h
    split at h
    · simp only [Aftermath.runSteps, aftermath_step_sound ‹_›, ih h]
    · cases h
    · cases h

/-- R106: after the UPDATE in UNCONFIGURED no register of the instance is promised, `mode` and `ovalid` included. -/
theorem perform_update_unconfigured {c : Aftermath} (h : c.state.mode = .unconfigured) :
    c.perform (updateOf c.state.topo) = .next { standing := .lost, state := c.state.unspecifyAll } := by
  refine perform_of_fault ?_
  cases c.state.topo <;> exact (whenRunning_eq_fault _ _ _).2 ⟨h, rfl⟩

/-! ### The two ways out -/

/-- R112: a reset is the way out of any state; the instance is sound again. -/
theorem perform_reset (c : Aftermath) :
    c.perform .reset =
      .next { standing := .sound, state := c.state.unspecify.setUnconfigured.clearOvalid } := rfl

/-- R112: after a reset, whatever went before, a stream does what `exec` does, BEGIN first or not. -/
theorem performAll_reset {is : List Instr} {c : Aftermath} {t : State} (h : execAll (.reset :: is) c.state = .next t) :
    c.performAll (.reset :: is) = .next { standing := .sound, state := t } := by
  simp only [Aftermath.performAll, perform_reset]
  exact performAll_sound h

/-- R112, U18: a BEGIN alone restores `tw`, `acc` and `mode`; `ovalid` and the output registers are not promised. -/
theorem perform_begin_lost {c : Aftermath} (h : c.standing ≠ .sound) (p : Ports) :
    ∃ d, c.perform (beginOf c.state.topo p) = .next d ∧ d.standing = .restored ∧ d.state.mode = .running ∧
      (∀ k ∈ c.state.topo.channels, d.state.chan k = { tw := (p.operandsOf k).1, acc := (p.operandsOf k).2 }) ∧
      d.state.ovalid = Config.freeOvalid c.state.draws ∧
      ∀ o ∈ c.state.topo.outputs, d.state.out o.name =
        { raw := freeRawValue c.state.res (Config.freeRaw c.state.draws o.name)
          smp := freeSmpValue c.state.res (Config.freeSmp c.state.draws o.name) } := by
  obtain ⟨k, s⟩ := c
  cases k <;> cases ht : s.topo <;> first | exact absurd rfl h | skip
  all_goals
    refine ⟨_, rfl, rfl, ?_⟩
    simp [Standing.settle, Standing.after, beginOf, Topology.channels, Topology.outputs, Ports.operandsOf, out_unspecifyOutputs, ht]

/-- U18: until a reset intervenes a restored instance stays restored, its accumulator advancing as ever and its outputs not promised. -/
theorem perform_update_restored {c : Aftermath} (hk : c.standing = .restored) (hm : c.state.mode = .running) :
    ∃ d, c.perform (updateOf c.state.topo) = .next d ∧ d.standing = .restored ∧ d.state.mode = .running ∧
      (∀ k ∈ c.state.topo.channels, d.state.tw k = c.state.tw k ∧ d.state.acc k = c.state.acc k + c.state.tw k) ∧
      d.state.ovalid = Config.freeOvalid c.state.draws ∧
      ∀ o ∈ c.state.topo.outputs, d.state.out o.name =
        { raw := freeRawValue c.state.res (Config.freeRaw c.state.draws o.name)
          smp := freeSmpValue c.state.res (Config.freeSmp c.state.draws o.name) } := by
  obtain ⟨k, s⟩ := c
  obtain rfl : k = .restored := hk
  replace hm : s.mode = .running := hm
  cases ht : s.topo
  all_goals
    refine ⟨_, perform_of_next ((whenRunning_eq_next _ _ _).2 ⟨hm, rfl⟩), rfl, ?_⟩
    simp [Standing.settle, Standing.after, updateOf, Topology.channels, Topology.outputs, out_unspecifyOutputs, ht, hm, tw_eq, acc_eq]

end Sys2Proof.Machine
end

