-- ==== Sys2Proof/Laws/System.lean ====
section
/-! SUPPORT. What a step of a system does (R38): one lemma per function, by the instance looked at. -/

namespace Sys2Proof.Machine

@[simp] theorem advance_next (s : State) : advance (.next s) = step s := rfl
@[simp] theorem advance_fault (e : Fault) : advance (.fault e) = .fault e := rfl
@[simp] theorem advance_refused (e : Refusal) : advance (.refused e) = .refused e := rfl

@[simp] theorem length_stepInstance (k : Nat) (sys : System) : (stepInstance k sys).length = sys.length := by
  simp [stepInstance]

/-- Everything a step of instance `k` does: instance `k` advances, every other instance is untouched. -/
theorem getElem?_stepInstance (k j : Nat) (sys : System) :
    (stepInstance k sys)[j]? = if j = k then sys[j]?.map advance else sys[j]? := by
  rw [stepInstance, List.getElem?_modify]
  by_cases h : j = k
  · simp [h]
  · simp [h, Ne.symm h]

theorem stepInstances_cons (k : Nat) (ks : List Nat) (sys : System) :
    stepInstances (k :: ks) sys = stepInstances ks (stepInstance k sys) := rfl

/-- A run, one step at its head. -/
theorem runSteps_succ (n : Nat) (s : State) :
    runSteps (n + 1) s =
      match step s with
      | .next t    => runSteps n t
      | .fault e   => .fault e
      | .refused e => .refused e := rfl

end Sys2Proof.Machine
end

