-- ==== Sys2Proof/Tests/Slice0.lean ====
section
/-! SUPPORT. Tests. Every expected value is one of the spec's (95_test_vectors.md, or the example of the rule named), or one worked out
by hand from the rule named. Each `witness_<Name>` shows states and operands that meet the hypotheses of the obligation <Name>, clause
by clause. -/

namespace Sys2Proof.Tests

open Sys2Proof Sys2Proof.Machine

/-! ### Helpers -/

/-- `RAMP8` (95_test_vectors.md section 1). -/
def ramp8 : List Nat := (List.range 256).map (fun i => min i 254)

/-- `RAMP10`. -/
def ramp10 : List Nat := (List.range 1024).map (fun i => min i 1022)

/-- What `State.build` answers for a legal table (`witness_InvariantHoldsAtReset`). -/
def built (t : Topology) (r : Resolution) (entries : List Nat) : State :=
  { State.reset with topo := t, res := r, lut := Memory.ofEntries r entries }

/-- An instance of topology `t`, RUNNING, channel A holding `tw` and `acc`, with the table `entries`. -/
def running (t : Topology) (r : Resolution) (entries : List Nat) (tw acc : Word) : State :=
  { built t r entries with mode := .running, chA := { tw := tw, acc := acc } }

/-- An instance with the table that lists nothing, every entry `MID`. -/
def plain (t : Topology) (m : Mode) : State := { State.reset with topo := t, mode := m }

/-- The outcome is a next state with the property. -/
def onNext {α : Type} (o : Host.Outcome α Fault Refusal) (p : α → Bool) : Bool :=
  match o with
  | .next s => p s
  | _       => false

/-- The word of an outcome, if it is one. -/
def wordOf (o : Host.Outcome Word Fault Refusal) : Option Word :=
  match o with
  | .next w => some w
  | _       => none

/-- The name of the stop, for a fault or a refusal. -/
def stopOf (o : Host.Outcome State Fault Refusal) : Option (Fault ⊕ Refusal) :=
  match o with
  | .next _    => none
  | .fault e   => some (.inl e)
  | .refused e => some (.inr e)

/-! ### WellFormed refuses, check by check -/

theorem test_wellFormed_refuses_foreign_begin : Instr.wellFormed .single (.begin2ch 1 2 3 4) = false := by decide
theorem test_wellFormed_refuses_foreign_update : Instr.wellFormed .dual .updateIq = false := by decide
theorem test_table_refuses_index_out_of_range : Memory.wf .res8 [(256, 0)] = false := by decide
theorem test_table_refuses_entry_above_rawMax : Memory.wf .res8 [(3, 255)] = false ∧ Memory.wf .res10 [(3, 1023)] = false := by decide
theorem test_table_refuses_falling_indices : Memory.wf .res8 [(4, 1), (4, 2)] = false := by decide
theorem test_table_refuses_listed_mid : Memory.wf .res8 [(4, 127)] = false := by decide
theorem test_entries_refuse_wrong_length : entriesLegal .res8 [1, 2, 3] = false := by decide
theorem test_entries_refuse_value : entriesLegal .res8 (List.replicate 255 0 ++ [255]) = false := by decide +kernel

/-! ### Decoding, words written out from R47 and R48 -/

theorem test_decode_reset : decodeWord 5 0b10111 = .ok .reset := by decide
theorem test_decode_nop : decodeWord 5 0b01000 = .ok .nop := by decide
/-- R48's example `00001:1999999A:00000000`. -/
theorem test_decode_begin1ch : decodeWord 69 0x11999999A00000000 = .ok (.begin1ch 0x1999999A 0) := by decide
theorem test_decode_update1ch : decodeWord 5 0b00010 = .ok .update1ch := by decide
/-- P4 line 2. -/
theorem test_decode_begin2ch : decodeWord 133 0x510000000000000003000000080000000 =
    .ok (.begin2ch 0x10000000 0 0x30000000 0x80000000) := by decide
theorem test_decode_update2ch : decodeWord 5 0b00110 = .ok .update2ch := by decide
/-- P2 line 2. -/
theorem test_decode_beginIq : decodeWord 69 0x940000000C0000000 = .ok (.beginIq 0x40000000 0xC0000000) := by decide
theorem test_decode_updateIq : decodeWord 5 0b01010 = .ok .updateIq := by decide
/-- P3 line 2. -/
theorem test_decode_begin3ph : decodeWord 69 0xD2AAAAAAB80000000 = .ok (.begin3ph 0x2AAAAAAB 0x80000000) := by decide
theorem test_decode_update3ph : decodeWord 5 0b01110 = .ok .update3ph := by decide
theorem test_decode_reserved : decodeWord 5 0b01111 = .ok .reserved := by decide
theorem test_decode_rejects :
    decodeWord 5 0b00001 = .error .formatMismatch ∧ decodeWord 6 0 = .error .noSuchWidth ∧
    decodeWord 5 32 = .error .bitsAboveWidth ∧ decode ⟨0, [1]⟩ = .error .noSuchFormat := by decide

/-- The rows' words as the opcode table numbers them, operand words zero, and one with operands from bit 8 on. -/
theorem test_decodeTableWord_rows :
    [decodeTableWord 8 0x10, decodeTableWord 8 0x00, decodeTableWord 72 0x01, decodeTableWord 8 0x02, decodeTableWord 136 0x05,
      decodeTableWord 8 0x06, decodeTableWord 72 0x09, decodeTableWord 8 0x0A, decodeTableWord 72 0x0D, decodeTableWord 8 0x0E,
      decodeTableWord 8 0x03] =
    [some .reset, some .nop, some (.begin1ch 0 0), some .update1ch, some (.begin2ch 0 0 0 0), some .update2ch,
      some (.beginIq 0 0), some .updateIq, some (.begin3ph 0 0), some .update3ph, some .reserved] := by decide
theorem test_decodeTableWord_operands : decodeTableWord 72 0x00000002000000010D = some (.begin3ph 1 2) := by decide
theorem test_decodeTableWord_rejects : decodeTableWord 8 0x21 = none := by decide
theorem test_text : (encode .single (.begin1ch 0x1999999A 0)).text = "00001:1999999A:00000000".toList := by decide

/-! ### One step of each instruction -/

theorem test_reset (s : State) : onNext (exec .reset s) (fun t => t.mode = .unconfigured ∧ t.ovalid = false) = true := by
  simp [onNext, exec, execReset]

/-- P5 line 5. -/
theorem test_nop (s : State) : exec .nop s = .next s := rfl

/-- 95_test_vectors.md 3.4, last row. -/
theorem test_begin1ch (s : State) :
    onNext (exec (.begin1ch 5 9) s) (fun t => t.tw .A = 5 ∧ t.acc .A = 9 ∧ t.mode = .running ∧ t.out .a = s.out .a) = true := by
  simp [onNext, exec, execBegin1ch, tw_eq, acc_eq]

/-- S1, P1 line 3. -/
theorem test_update1ch_scenario :
    onNext (exec .update1ch (running .single .res8 ramp8 429496730 0))
      (fun t => t.acc .A = 0x1999999A ∧ t.raw .a = 25 ∧ t.smp .a = -102 ∧ t.ovalid = true) = true := by decide +kernel

/-- P1 line 12, the wrap. -/
theorem test_update1ch_wraps :
    onNext (exec .update1ch (running .single .res8 ramp8 0x1999999A 0xE666666A))
      (fun t => t.acc .A = 4 ∧ t.raw .a = 0 ∧ t.smp .a = -127) = true := by decide +kernel

/-- P4 line 2. -/
theorem test_begin2ch (s : State) :
    onNext (exec (.begin2ch 0x10000000 0 0x30000000 0x80000000) s)
      (fun t => t.chan .A = ⟨0x10000000, 0⟩ ∧ t.chan .B = ⟨0x30000000, 0x80000000⟩ ∧ t.mode = .running) = true := by
  simp [onNext, exec, execBegin2ch]

/-- P4 line 5: channel B wraps, channel A does not. -/
theorem test_update2ch :
    onNext (exec .update2ch { running .dual .res8 ramp8 0x10000000 0x20000000 with chB := ⟨0x30000000, 0xE0000000⟩ })
      (fun t => t.acc .A = 0x30000000 ∧ t.acc .B = 0x10000000 ∧ t.smp .a = -79 ∧ t.smp .b = -111) = true := by decide +kernel

/-- P2 line 2. -/
theorem test_beginIq (s : State) :
    onNext (exec (.beginIq 0x40000000 0xC0000000) s)
      (fun t => t.chan .A = ⟨0x40000000, 0xC0000000⟩ ∧ t.mode = .running ∧ t.out .Q = s.out .Q) = true := by
  simp [onNext, exec, execBeginIq]

/-- 95_test_vectors.md 3.5: the last phase before the Q sum wraps. -/
theorem test_updateIq_last_before_wrap :
    onNext (exec .updateIq (running .iq .res8 ramp8 1 0xBFFFFFFE))
      (fun t => t.acc .A = 0xBFFFFFFF ∧ t.smp .I = 64 ∧ t.smp .Q = 127) = true := by decide +kernel

/-- 95_test_vectors.md 3.5: the Q sum wraps, the accumulator does not. -/
theorem test_updateIq_wraps :
    onNext (exec .updateIq (running .iq .res8 ramp8 0x40000000 0x80000000))
      (fun t => t.acc .A = 0xC0000000 ∧ t.smp .I = 65 ∧ t.smp .Q = -127) = true := by decide +kernel

/-- P3 line 2. -/
theorem test_begin3ph (s : State) :
    onNext (exec (.begin3ph 0x2AAAAAAB 0x80000000) s)
      (fun t => t.chan .A = ⟨0x2AAAAAAB, 0x80000000⟩ ∧ t.mode = .running ∧ t.ovalid = s.ovalid) = true := by
  simp [onNext, exec, execBegin3ph]

/-- P3 line 3: the V sum is exactly `2^32`. -/
theorem test_update3ph_res10 :
    onNext (exec .update3ph (running .threePhase .res10 ramp10 0x2AAAAAAB 0x80000000))
      (fun t => t.acc .A = 0xAAAAAAAB ∧ t.smp .U = 171 ∧ t.smp .V = -511 ∧ t.smp .W = -170) = true := by decide +kernel

/-- 95_test_vectors.md 3.6, tick 3. -/
theorem test_update3ph_res8 :
    onNext (exec .update3ph (running .threePhase .res8 ramp8 0x1999999A 0x33333334))
      (fun t => t.smp .U = -51 ∧ t.smp .V = 35 ∧ t.smp .W = 120) = true := by decide +kernel

/-- P6, and `RESET; NOP; UPDATE` of 3.8. -/
theorem test_update_before_begin : stopOf (exec .updateIq (plain .iq .unconfigured)) = some (.inl .updateBeforeBegin) := rfl
theorem test_reserved (s : State) : stopOf (exec .reserved s) = some (.inr .reservedCommand) := rfl

/-- A step of a DUAL instance with `rst = 1`, `cmd = 11` is RESET (3.8); one that presents the table word of UPDATE.1CH runs it. -/
theorem test_step_reset_dominates :
    onNext (step { plain .dual .running with inputs := [⟨true, 0b11, 1, 2, 3, 4⟩] })
      (fun t => t.mode = .unconfigured ∧ t.inputs = []) = true := by decide +kernel
theorem test_withFetchWord :
    onNext (step (State.reset.withFetchWord 72 0x000000090000000501))
      (fun t => t.chA = ⟨5, 9⟩ ∧ t.mode = .running ∧ t.inputs = []) = true := by decide +kernel
theorem test_withFetchWord_key : onNext (step (State.reset.withFetchWord 8 0x0C)) (fun t => t.topo = .threePhase) = true := by
  decide +kernel

/-! ### Operand forms -/

/-- 95_test_vectors.md 3.3. -/
theorem test_indexFor :
    ([0x003FFFFF, 0x00400000, 0x00FFFFFF, 0x1999999A, 0xFEFFFFFF, 0xFFBFFFFF, 0xFFC00000].map (indexFor .res8),
      [0x003FFFFF, 0x00400000, 0x00FFFFFF, 0x1999999A, 0xFEFFFFFF, 0xFFBFFFFF, 0xFFC00000].map (indexFor .res10)) =
    ([0, 0, 0, 25, 254, 255, 255], [0, 1, 3, 102, 1019, 1022, 1023]) := by decide
theorem test_withOffset :
    [off90, off120, off240].map (withOffset 0xAAAAAAAB) = [0xEAAAAAAB, 0x00000000, 0x55555556] := by decide
theorem test_toSigned :
    ([0, 126, 127, 254].map (toSigned .res8), [0, 510, 512, 1022].map (toSigned .res10)) =
    ([-127, -1, 0, 127], [-511, -1, 1, 511]) := by decide
theorem test_portCode :
    [-127, -1, 127].map (portCode .res8) = [0x81, 0xFF, 0x7F] ∧ [-511, -1, 511].map (portCode .res10) = [0x201, 0x3FF, 0x1FF] := by
  decide
/-- 95_test_vectors.md 3.2. -/
theorem test_phasePeriod :
    [0, 3, 0x01000000, 0x30000000, 0x80000000, 0x1999999A, 0xFFFFFFFF].map phasePeriod =
    [1, 4294967296, 256, 16, 2, 2147483648, 4294967296] := by decide

/-! ### The host side -/

/-- 95_test_vectors.md 3.1, evaluated at the rationals. -/
theorem test_computeTuningWord :
    [((50 : ℚ), (1 / 10000 : ℚ)), (60, 1 / 8000), (440, 1 / 44100), (5000, 1 / 10000), (0, 1 / 10000), (1, 1 / 8589934592),
      (11000, 1 / 10000), (9999999999 / 10000000000, 1)].map
      (fun p => wordOf (computeTuningWord (FloatEval.exact 6) (.finite p.1) (.finite p.2))) =
    [some 21474836, some 32212255, some 42852281, some 2147483648, some 0, some 1, some 429496730, some 0] := by decide +kernel
theorem test_computeTuningWord_refuses :
    (wordOf (computeTuningWord (FloatEval.exact (6 : ℚ)) (.finite (-1)) (.finite 1)),
      wordOf (computeTuningWord (FloatEval.exact (6 : ℚ)) .infinite (.finite 1))) = (none, none) := by decide +kernel
/-- 95_test_vectors.md 3.1: `computeInitialPhase(1.0)`. -/
theorem test_computeInitialPhase :
    computeInitialPhase (FloatEval.exact (2 * Real.pi)) (.finite 1) = .next 683565275 := by
  have h1 := Real.pi_gt_d20
  have h2 := Real.pi_lt_d20
  have hf : ⌊(1 : ℝ) * 2 ^ 32 / (2 * Real.pi)⌋ = 683565275 := by
    rw [Int.floor_eq_iff, le_div_iff₀ (by positivity), div_lt_iff₀ (by positivity)]
    norm_num
    constructor <;> linarith
  show (if (1 : ℝ) ≤ 0 ∨ 2 * Real.pi < 1 then _ else _) = _
  rw [if_neg (by rintro (h | h) <;> linarith)]
  show Host.Outcome.next (wrapWord ⌊(1 : ℝ) * 2 ^ 32 / (2 * Real.pi)⌋) = _
  rw [hf]
  rfl

/-- P1's header and two of its lines, as text; the loaded instance has them queued. -/
theorem test_loadText :
    onNext (loadText ramp8 ["INSTANCE TOPO=SINGLE RES=8 LUT=RAMP8".toList, "RESET".toList,
        "BEGIN tw=429496730, ph=0".toList, "UPDATE 2".toList])
      (fun s => s.inputs.map (decodePorts s.topo) = [.reset, .begin1ch 0x1999999A 0, .update1ch, .update1ch]) = true := by
  decide +kernel
theorem test_loadText_malformed :
    stopOf (loadText ramp8 ["INSTANCE TOPO=IQ RES=8".toList, "BEGIN twa=1, pha=2, twb=3, phb=4".toList]) =
      some (.inr .malformedTrace) := by decide +kernel

/-! ### Systems (R38) -/

/-- Instance 0 is ticked before its BEGIN and stops; instance 1 is then ticked twice: P1's accumulator after two ticks. -/
theorem test_stop_of_one_instance_leaves_the_other :
    ((stepInstances [0, 1, 0, 1] (System.of
        [(plain .single .unconfigured).present ⟨false, 0b10, 0, 0, 0, 0⟩,
          { running .single .res8 ramp8 0x1999999A 0 with inputs := List.replicate 2 ⟨false, 0b10, 0, 0, 0, 0⟩ }])).map
      (fun o => (stopOf o, onNext o (fun t => t.chA.acc = 0x33333334)))) =
    [(some (.inl .updateBeforeBegin), false), (none, true)] := by decide +kernel

/-! ### After an UPDATE in UNCONFIGURED (R112, U18) -/

/-- The host goes on with a BEGIN alone, then ticks once: `mode`, `tw`, `acc` are BEGIN's and the tick's. -/
theorem test_begin_alone_restores :
    onNext (Aftermath.performAll [.update1ch, .begin1ch 3 5, .update1ch]
        { standing := .sound, state := plain .single .unconfigured })
      (fun d => d.standing = .restored ∧ d.state.mode = .running ∧ d.state.chA = ⟨3, 8⟩) = true := by decide +kernel

/-- The host resets, then configures and ticks: the sample of the spec's scenario (P1 line 3), with `ovalid` set. -/
theorem test_reset_makes_sound :
    onNext (Aftermath.performAll [.update1ch, .nop, .reset, .begin1ch 0x1999999A 0, .update1ch]
        { standing := .sound, state := built .single .res8 ramp8 })
      (fun d => d.standing = .sound ∧ d.state.ovalid = true ∧ d.state.chA = ⟨0x1999999A, 0x1999999A⟩ ∧
        d.state.outa = ⟨25, -102⟩) = true := by decide +kernel

/-! ### Witnesses: the hypotheses of the obligations can be met -/

/-- A running instance with RAMP8 whose outputs hold the sample of an UPDATE (P1 line 3). -/
def sampled : State :=
  { running .single .res8 ramp8 0x1999999A 0x1999999A with ovalid := true, outa := { raw := 25, smp := -102 } }

theorem sampled_inv : sampled.Inv := by
  refine ⟨by decide +kernel, ?_, ?_⟩
  · intro o ho
    replace ho : o ∈ [(⟨.a, .A, 0⟩ : OutputSpec)] := ho
    obtain rfl := List.mem_singleton.1 ho
    show (25 : Raw).toNat < 2 ^ 8 ∧ -(2 : Int) ^ 7 ≤ -102 ∧ (-102 : Int) < 2 ^ 7
    decide
  · intro _
    refine ⟨rfl, fun o ho => ?_⟩
    replace ho : o ∈ [(⟨.a, .A, 0⟩ : OutputSpec)] := ho
    obtain rfl := List.mem_singleton.1 ho
    show (25 : Raw).toNat ≤ 254 ∧ (-102 : Int) = ((25 : Raw).toNat : Int) - 127
    decide

theorem witness_EncodedInstructionsDecodeBack : Instr.wellFormed .dual (.begin2ch 0 0xFFFFFFFF 1 0x80000000) = true := by decide
theorem witness_DecodedWordsEncodeBack :
    decodeWord 69 0xDFFFFFFFF00000000 = .ok (.begin3ph 0xFFFFFFFF 0) ∧ decodeWord 5 16 = .ok .reset ∧ decodeWord 5 31 = .ok .reset := by
  decide
theorem witness_StepRunsPresentedInstruction :
    (plain .iq .unconfigured).paramsLegal = true ∧ Instr.wellFormed .iq (.beginIq 1 2) = true ∧
    State.inputs { plain .iq .unconfigured with inputs := [(Instr.beginIq 1 2).toPorts] } = (Instr.beginIq 1 2).toPorts :: [] ∧
    (plain .iq .unconfigured).inputs = [] ∧ decodeTableWord 72 0x09 = some (.beginIq 0 0) := by decide
theorem witness_StreamIsCompositionOfCommands :
    State.paramsLegal { plain .single .unconfigured with inputs := [Instr.begin1ch 1 2, .update1ch, .reset].map Instr.toPorts } = true ∧
    (∀ i ∈ [Instr.begin1ch 1 2, .update1ch, .reset], i.wellFormed .single = true) := by decide
theorem witness_ResetDominatesAndRepeats :
    (plain .single .running).paramsLegal = true ∧ (⟨true, 0b11, 1, 2, 3, 4⟩ : Ports).rst = true ∧
    Chan.B ∉ Topology.single.channels ∧ OutName.b ∉ Topology.single.outputs.map OutputSpec.name := by decide
theorem witness_Updates_running_and_unconfigured :
    (plain .single .running).mode = .running ∧ (plain .single .unconfigured).mode = .unconfigured := ⟨rfl, rfl⟩
theorem witness_ResetClearsFlagsAndKeepsParameters : (⟨true, 0b01, 7, 7, 7, 7⟩ : Ports).rst = true := rfl
theorem witness_ReservedCodeIsRefused :
    (plain .dual .running).paramsLegal = true ∧ (⟨false, 0b11, 0, 0, 0, 0⟩ : Ports).rst = false ∧
    (⟨false, 0b11, 0, 0, 0, 0⟩ : Ports).cmd = 0b11 := by decide
theorem witness_UpdateBeforeBeginFaults :
    Instr.isUpdate .update1ch = true ∧ Instr.isUpdate .update2ch = true ∧ Instr.isUpdate .updateIq = true ∧
    Instr.isUpdate .update3ph = true := by decide
theorem witness_BeginLeavesOutputsAlone (s : State) :
    (∃ t, exec (.begin1ch 1 2) s = .next t) ∧ (∃ t, exec (.begin2ch 1 2 3 4) s = .next t) ∧ (∃ t, exec (.beginIq 1 2) s = .next t) ∧
    (∃ t, exec (.begin3ph 1 2) s = .next t) ∧ (Instr.begin1ch 1 2).isBegin = true ∧ (Instr.begin1ch 1 2).format = .C1 :=
  ⟨⟨_, rfl⟩, ⟨_, rfl⟩, ⟨_, rfl⟩, ⟨_, rfl⟩, rfl, rfl⟩
theorem witness_UpdateLeavesConfigurationAlone :
    (∃ t, exec .update1ch (plain .single .running) = .next t) ∧ (∃ t, exec .update2ch (plain .dual .running) = .next t) ∧
    (∃ t, exec .updateIq (plain .iq .running) = .next t) ∧ (∃ t, exec .update3ph (plain .threePhase .running) = .next t) :=
  ⟨⟨_, rfl⟩, ⟨_, rfl⟩, ⟨_, rfl⟩, ⟨_, rfl⟩⟩
theorem witness_ResetDrawsOnlyOwnRegisters (s : State) : ∃ t, exec .reset s = .next t := ⟨_, rfl⟩
theorem witness_StepKeepsInvariant :
    sampled.Inv ∧ ∃ t, step { sampled with inputs := [Instr.update1ch.toPorts] } = .next t := by
  refine ⟨sampled_inv, ?_⟩
  have hl : State.paramsLegal { sampled with inputs := [Instr.update1ch.toPorts] } = true := sampled_inv.1
  rw [step, if_pos hl]
  exact ⟨_, rfl⟩
theorem witness_InvariantHoldsAtReset : State.build .threePhase .res8 ramp8 = .next (built .threePhase .res8 ramp8) := by
  rw [State.build, if_pos (by decide +kernel)]
  rfl
theorem witness_TableIsNeverWritten : ∃ t, runSteps 2 (plain .single .running) = .next t := ⟨_, rfl⟩
theorem witness_ModeFollowsLifecycle :
    (∃ t, exec (.begin1ch 1 2) State.reset = .next t ∧ t.mode = .running) ∧
    (∃ t, exec .nop State.reset = .next t ∧ t.mode = .unconfigured) := ⟨⟨_, rfl, rfl⟩, ⟨_, rfl, rfl⟩⟩
theorem witness_OutputsFollowCurrentAccumulator :
    (∀ i ∈ [Instr.begin1ch 1 2, .update1ch, .nop], i.wellFormed .single = true) ∧
    (∃ t, execAll [.begin1ch 1 2, .update1ch, .nop] (plain .single .unconfigured) = .next t) ∧
    (latestCommand [.begin1ch 1 2, .update1ch, .nop]).isUpdate = true := ⟨by decide, ⟨_, rfl⟩, by decide⟩
theorem witness_OutputsStaleAfterReconfiguration :
    ∃ t, exec (updateOf (plain .iq .running).topo) (plain .iq .running) = .next t := ⟨_, rfl⟩
theorem witness_AccumulatorIsLinear :
    (plain .dual .running).mode = .running ∧ steady .dual [.nop, .update2ch, .nop, .update2ch] ∧
    ticks .dual [.nop, .update2ch, .nop, .update2ch] = 2 ∧ Chan.B ∈ Topology.dual.channels := by
  refine ⟨rfl, ?_, by decide, by decide⟩
  simp [steady, updateOf]
theorem witness_AccumulatorIsPeriodic :
    (∃ t, execAll (List.replicate 2 (updateOf .single)) (running .single .res8 [] 0x80000000 5) = .next t) ∧
    (1 : Word).toNat % 2 = 1 ∧ (1 : Word).toNat = 2 ^ 0 * 1 ∧ (0x80000000 : Word).toNat = 2 ^ 31 * 1 ∧
    (State.tw { plain .single .running with chA := ⟨0xFFFFFFFF, 0⟩ } .A).toNat % 2 = 1 := ⟨⟨_, rfl⟩, by decide⟩
theorem witness_IndexStepsByQuotientOrOneMore :
    (0xFF000000 : Word).toNat % 2 ^ Resolution.res8.shift = 0 ∧
    (0x00FFFFFE : Word).toNat % 2 ^ Resolution.res8.shift + (1 : Word).toNat < 2 ^ Resolution.res8.shift := by decide
theorem witness_LookupQuantisesDownward :
    255 < Resolution.res8.tableLength ∧ indexFor .res8 0xFF000000 = 255 ∧ indexFor .res8 0xFEFFFFFF = 254 ∧
    1023 < Resolution.res10.tableLength ∧ indexFor .res10 0xFFC00000 = 1023 := by decide
theorem witness_OffsetShiftsIndex : off90.toNat % 2 ^ Resolution.res8.shift = 0 ∧ off90.toNat % 2 ^ Resolution.res10.shift = 0 := by
  decide
theorem witness_SignedSampleFitsItsPort :
    (0 : Raw).toNat ≤ Resolution.res8.rawMax ∧ (254 : Raw).toNat ≤ Resolution.res8.rawMax ∧
    (1022 : Raw).toNat ≤ Resolution.res10.rawMax ∧ Resolution.res8.bits ≤ 8 := by decide
/-- 95_test_vectors.md 3.3: the thresholds of R99, both sides, with `p = (7 << SHIFT) | f`. -/
theorem witness_ThreePhaseIndexOffsets :
    (plain .threePhase .running).mode = .running ∧ (plain .threePhase .running).res = .res8 ∧
    [0x07AAAAAA, 0x07AAAAAB].map (fun p => indexFor .res8 (withOffset p off120)) = [7 + 85, 7 + 86] ∧
    [0x07555554, 0x07555555].map (fun p => indexFor .res8 (withOffset p off240)) = [7 + 170, 7 + 171] ∧
    [0x01EAAAAA, 0x01EAAAAB].map (fun p => indexFor .res10 (withOffset p off120)) = [7 + 341, 7 + 342] ∧
    [0x01D55554, 0x01D55555].map (fun p => indexFor .res10 (withOffset p off240)) = [7 + 682, 7 + 683] := by decide
theorem witness_QuadratureIsLocked : (plain .iq .running).mode = .running := rfl
theorem witness_OutputSequenceAfterBegin :
    steady .threePhase [.nop, .update3ph] ∧ 1 ≤ ticks .threePhase [.nop, .update3ph] := ⟨by simp [steady, updateOf], by decide⟩
theorem witness_SamplesArePeriodic :
    (plain .threePhase .running).mode = .running ∧ (⟨.W, .A, off240⟩ : OutputSpec) ∈ Topology.threePhase.outputs := by decide
/-- Two streams that give channel A the same operands and channel B other ones. -/
theorem witness_DualChannelsDoNotInfluenceEachOther :
    (plain .dual .running).topo = .dual ∧
    (∀ i ∈ [Instr.begin2ch 1 2 3 4, .update2ch] ++ [Instr.begin2ch 1 2 5 6, .update2ch], i.wellFormed .dual = true) ∧
    [Instr.begin2ch 1 2 3 4, .update2ch].map (dualToSingle .A) = [Instr.begin2ch 1 2 5 6, .update2ch].map (dualToSingle .A) ∧
    (∃ t, execAll [.begin2ch 1 2 3 4, .update2ch] (plain .dual .running) = .next t) ∧
    (∃ t, execAll [.begin2ch 1 2 5 6, .update2ch] { plain .dual .running with chB := ⟨9, 9⟩ } = .next t) :=
  ⟨rfl, by decide, by decide, ⟨_, rfl⟩, ⟨_, rfl⟩⟩
theorem witness_DualBehavesAsTwoSingles :
    standsAs .A (plain .dual .unconfigured) (plain .single .unconfigured) ∧
    standsAs .B { plain .dual .running with chB := ⟨1, 2⟩ } { plain .single .running with chA := ⟨1, 2⟩ } ∧
    (∃ t, execAll [.begin2ch 1 2 3 4, .update2ch, .reset] (plain .dual .unconfigured) = .next t) ∧
    (∀ i ∈ [Instr.begin2ch 1 2 3 4, .update2ch, .reset], i.wellFormed .dual = true) ∧
    execAll [.update2ch] (plain .dual .unconfigured) = .fault .updateBeforeBegin ∧
    execAll [.reserved] (plain .dual .unconfigured) = .refused .reservedCommand :=
  ⟨by simp [standsAs, plain, State.reset], by simp [standsAs, plain, State.reset, State.chan], ⟨_, rfl⟩, by decide, rfl, rfl⟩
theorem witness_IqSamplesMatchShiftedDual :
    loadedAsIq { plain .iq .running with chA := ⟨0x40000000, 0xC0000000⟩ }
      { plain .dual .running with chA := ⟨0x40000000, 0xC0000000⟩, chB := ⟨0x40000000, 0x00000000⟩ } := by
  refine ⟨rfl, rfl, rfl, rfl, rfl, rfl, rfl, rfl, rfl, by decide⟩
/-- Two orders with the same steps for each instance; both name a number that is no instance. -/
theorem witness_InterleavingsGiveSameStates :
    (System.of [plain .single .running, plain .iq .running])[1]? = some (.next (plain .iq .running)) ∧
    (∃ t, runSteps ([1, 0, 1, 7].count 1) (plain .iq .running) = .next t) ∧ (0 : Nat) ≠ 1 ∧
    ∀ k, [0, 1, 1, 7].count k = [1, 0, 1, 7].count k :=
  ⟨rfl, ⟨_, rfl⟩, by decide, (List.Perm.swap 1 0 [1, 7]).count_eq⟩
theorem witness_OutputPortsDriveRegisters :
    PortName.acc .B ∉ outputPorts .single ∧ Chan.B ∈ Topology.dual.channels ∧
    (⟨.Q, .A, off90⟩ : OutputSpec) ∈ Topology.iq.outputs := by decide
theorem witness_ValidSamplesReadBackExactly :
    sampled.Inv ∧ sampled.ovalid = true ∧ (⟨.a, .A, 0⟩ : OutputSpec) ∈ sampled.topo.outputs :=
  ⟨sampled_inv, rfl, List.mem_singleton.2 rfl⟩
theorem witness_BuildTakesExactlyLegalTables :
    (ramp8.length = Resolution.res8.tableLength ∧ ∀ v ∈ ramp8, v ≤ Resolution.res8.rawMax) ∧
    ¬ (ramp8.length = Resolution.res10.tableLength ∧ ∀ v ∈ ramp8, v ≤ Resolution.res10.rawMax) := by decide +kernel
theorem witness_TableReadsBackAndIsCanonical :
    Memory.wf .res8 [(0, 0), (255, 254)] = true ∧ Memory.supply .res8 255 127 [(0, 0), (255, 254)] = [(0, 0)] := by decide
theorem witness_TuningWordIsRoundedProduct : (0 : ℝ) ≤ 1000 * (1 / 10000) := by norm_num
theorem witness_TuningWordWrapsSilently :
    (0 : ℝ) ≤ 1000 * (1 / 10000) ∧ (1000 : ℝ) * (1 / 10000) < 1 - 1 / 2 ^ 33 ∧
    2 ^ 32 * (1 - 1 / 2 ^ 33 : ℝ) * 1 < 2 ^ 32 ∧ (1 - 1 / 2 ^ 33 : ℝ) ≤ (1 - 1 / 2 ^ 33) * 1 := by norm_num
theorem witness_InitialPhaseIsFloorOrZero :
    ((0 : ℝ) ≤ 0 ∨ 2 * Real.pi < 0) ∧ ((10 : ℝ) ≤ 0 ∨ 2 * Real.pi < 10) ∧ ((0 : ℝ) < 1 ∧ (1 : ℝ) < 2 * Real.pi) ∧
    ((0 : ℝ) < 1 / 2 ^ 32 ∧ (1 : ℝ) / 2 ^ 32 < 2 * Real.pi / 2 ^ 32) := by
  have h1 := Real.pi_gt_three
  have h2 := Real.pi_lt_four
  refine ⟨.inl le_rfl, .inr (by linarith), ⟨by norm_num, by linarith⟩, by norm_num, ?_⟩
  exact div_lt_div_of_pos_right (by linarith) (by norm_num)
theorem witness_ConversionsAreAccurate :
    (∃ w, computeTuningWord (FloatEval.exact (2 * Real.pi)) (.finite 0) (.finite (1 / 10000)) = .next w) ∧
    (0 : ℝ) ≤ 0 * (1 / 10000) ∧ (0 : ℝ) * (1 / 10000) < 1 - 1 / 2 ^ 33 ∧ (0 : ℝ) < 1 / 10000 ∧
    computeInitialPhase (FloatEval.exact (2 * Real.pi)) (.finite 1) = .next 683565275 := by
  refine ⟨?_, by norm_num, by norm_num, by norm_num, test_computeInitialPhase⟩
  show ∃ w, (if (0 : ℝ) * (1 / 10000) < 0 then _ else _) = Host.Outcome.next w
  rw [if_neg (by norm_num)]
  exact ⟨_, rfl⟩
theorem witness_PseudoOperationsExpand :
    (∃ w, computeTuningWord (FloatEval.exact (2 * Real.pi)) (.finite 0) (.finite (1 / 10000)) = .next w) ∧
    (∃ w, computeInitialPhase (FloatEval.exact (2 * Real.pi)) (.finite 1) = .next w) ∧ Topology.iq ≠ .dual :=
  ⟨witness_ConversionsAreAccurate.1, ⟨_, test_computeInitialPhase⟩, by decide⟩

end Sys2Proof.Tests
end

section
/-! SUPPORT. Building an instance (R5, R107, R119): what the table made from a sequence reads, what `State.build` answers, and the
obligation of the scope. -/

namespace Sys2Proof.Machine

/-- A table made from a sequence whose first entry has index `i` reads entry `k` of the sequence at index `i + k`; an entry equal to the
unlisted value has no cell and reads back all the same. -/
theorem read_ofEntriesFrom (r : Resolution) (i : Nat) (l : List Nat) (k : Nat) (hk : k < l.length) :
    Memory.read r (Memory.ofEntriesFrom r i l) (i + k) = BitVec.ofNat 10 l[k] := by
  induction l generalizing i k with
  | nil => simp at hk
  | cons v l ih =>
    simp only [Memory.ofEntriesFrom]
    cases k with
    | zero =>
      split
      next hv =>
        have later : ∀ c ∈ Memory.ofEntriesFrom r (i + 1) l, c.1 ≠ i := fun c hc =>
          Nat.ne_of_gt (mem_ofEntriesFrom r (i + 1) l c hc).1
        exact (read_of_not_listed r _ i later).trans hv.symm
      next => simp [Memory.read]
    | succ k =>
      have tail := ih (i + 1) k (Nat.lt_of_succ_lt_succ hk)
      rw [show i + 1 + k = i + (k + 1) by omega] at tail
      split
      next => exact tail
      next => simpa [Memory.read] using tail

/-- A legal entry fits the ten bits a raw sample is carried in (log entry 7). -/
theorem toNat_ofNat_of_le_rawMax (r : Resolution) (v : Nat) (hv : v ≤ r.rawMax) : (BitVec.ofNat 10 v).toNat = v := by
  have hmax : r.rawMax < 2 ^ 10 := by cases r <;> decide
  exact Nat.mod_eq_of_lt (hv.trans_lt hmax)

/-- The sequences R5 admits. -/
theorem entriesLegal_iff (r : Resolution) (l : List Nat) :
    entriesLegal r l = true ↔ l.length = r.tableLength ∧ ∀ v ∈ l, v ≤ r.rawMax := by
  simp [entriesLegal]

/-- A legal sequence builds the state after reset with the straps and the table supplied (R119). -/
theorem build_of_legal (t : Topology) (r : Resolution) (entries : List Nat) (h : entriesLegal r entries = true) :
    State.build t r entries =
      .next { State.reset with topo := t, res := r, lut := Memory.ofEntries r entries } := if_pos h

/-- An illegal sequence is refused (R107). -/
theorem build_of_not_legal (t : Topology) (r : Resolution) (entries : List Nat) (h : ¬ entriesLegal r entries = true) :
    State.build t r entries = .refused .illegalParameter := if_neg h

/-- Settles O51: a legal sequence passes the check of `State.build` and its table reads back by `read_ofEntriesFrom`; any other sequence
fails the check. -/
theorem buildTakesExactlyLegalTables : Obligations.BuildTakesExactlyLegalTables := by
  intro t r entries
  rw [← entriesLegal_iff]
  constructor
  · intro h
    refine ⟨_, build_of_legal t r entries h, rfl, rfl, rfl, rfl, ofEntries_wf r entries h, fun i hi => ?_⟩
    have hread : Memory.read r (Memory.ofEntries r entries) i = BitVec.ofNat 10 entries[i] := by
      simpa [Memory.ofEntries] using read_ofEntriesFrom r 0 entries i hi
    have hle : entries[i] ≤ r.rawMax := ((entriesLegal_iff r entries).1 h).2 _ (List.getElem_mem hi)
    exact (congrArg BitVec.toNat hread).trans (toNat_ofNat_of_le_rawMax r entries[i] hle)
  · exact build_of_not_legal t r entries

end Sys2Proof.Machine
end

section
/-! SUPPORT. What the commands do to the state of an instance (10_state.md): the four BEGINs and the four UPDATEs as one pattern each over
the topology (R91), the commands an instance can receive (R46), and the obligations about who writes what (R11, R22 to R25). -/

namespace Sys2Proof.Machine

/-! ### The two patterns -/

/-- What the BEGIN of topology `t` makes of `s` (R91): its channels loaded from the ports, `mode` RUNNING. -/
def State.begun (s : State) (t : Topology) (p : Ports) : State :=
  (t.channels.foldl (fun u c => u.paLoad c (p.operandsOf c).1 (p.operandsOf c).2) s).setRunning

/-- What the UPDATE of topology `t` makes of a running `s` (R91): its channels advanced, its outputs looked up, `ovalid` set. -/
def State.ticked (s : State) (t : Topology) : State :=
  (t.outputs.foldl State.sleLookup (t.channels.foldl State.paAdvance s)).setOvalid

theorem exec_beginOf (t : Topology) (p : Ports) (s : State) : exec (beginOf t p) s = .next (s.begun t p) := by
  cases t <;> rfl

theorem exec_updateOf (t : Topology) (s : State) : exec (updateOf t) s = s.whenRunning (s.ticked t) := by
  cases t <;> rfl

theorem exec_updateOf_of_running {s : State} (hm : s.mode = .running) (t : Topology) :
    exec (updateOf t) s = .next (s.ticked t) := by
  rw [exec_updateOf, whenRunning_eq_next]
  exact ⟨hm, rfl⟩

/-- BEGIN touches its channels and `mode`, nothing else. -/
theorem begun_frame (s : State) (t : Topology) (p : Ports) :
    (s.begun t p).topo = s.topo ∧ (s.begun t p).res = s.res ∧ (s.begun t p).lut = s.lut ∧
    (s.begun t p).mode = .running ∧ (s.begun t p).ovalid = s.ovalid ∧
    (s.begun t p).inputs = s.inputs ∧ (s.begun t p).draws = s.draws := by
  cases t <;> simp [State.begun, Topology.channels]

@[simp] theorem topo_begun (s : State) (t : Topology) (p : Ports) : (s.begun t p).topo = s.topo := (begun_frame s t p).1
@[simp] theorem res_begun (s : State) (t : Topology) (p : Ports) : (s.begun t p).res = s.res := (begun_frame s t p).2.1
@[simp] theorem lut_begun (s : State) (t : Topology) (p : Ports) : (s.begun t p).lut = s.lut := (begun_frame s t p).2.2.1
@[simp] theorem mode_begun (s : State) (t : Topology) (p : Ports) : (s.begun t p).mode = .running :=
  (begun_frame s t p).2.2.2.1
@[simp] theorem ovalid_begun (s : State) (t : Topology) (p : Ports) : (s.begun t p).ovalid = s.ovalid :=
  (begun_frame s t p).2.2.2.2.1
@[simp] theorem inputs_begun (s : State) (t : Topology) (p : Ports) : (s.begun t p).inputs = s.inputs :=
  (begun_frame s t p).2.2.2.2.2.1
@[simp] theorem draws_begun (s : State) (t : Topology) (p : Ports) : (s.begun t p).draws = s.draws :=
  (begun_frame s t p).2.2.2.2.2.2

/-- A channel after a BEGIN: its operands if the topology has it, unchanged otherwise. -/
theorem chan_begun (s : State) (t : Topology) (p : Ports) (c : Chan) :
    (s.begun t p).chan c =
      if c ∈ t.channels then { tw := (p.operandsOf c).1, acc := (p.operandsOf c).2 } else s.chan c := by
  cases t <;> cases c <;> simp [State.begun, Topology.channels]

@[simp] theorem out_begun (s : State) (t : Topology) (p : Ports) (o : OutName) : (s.begun t p).out o = s.out o := by
  cases t <;> simp [State.begun, Topology.channels]

/-- UPDATE touches its channels, its outputs and `ovalid`, nothing else. -/
theorem ticked_frame (s : State) (t : Topology) :
    (s.ticked t).topo = s.topo ∧ (s.ticked t).res = s.res ∧ (s.ticked t).lut = s.lut ∧
    (s.ticked t).mode = s.mode ∧ (s.ticked t).ovalid = true ∧
    (s.ticked t).inputs = s.inputs ∧ (s.ticked t).draws = s.draws := by
  cases t <;> simp [State.ticked, Topology.channels, Topology.outputs]

@[simp] theorem topo_ticked (s : State) (t : Topology) : (s.ticked t).topo = s.topo := (ticked_frame s t).1
@[simp] theorem res_ticked (s : State) (t : Topology) : (s.ticked t).res = s.res := (ticked_frame s t).2.1
@[simp] theorem lut_ticked (s : State) (t : Topology) : (s.ticked t).lut = s.lut := (ticked_frame s t).2.2.1
@[simp] theorem mode_ticked (s : State) (t : Topology) : (s.ticked t).mode = s.mode := (ticked_frame s t).2.2.2.1
@[simp] theorem ovalid_ticked (s : State) (t : Topology) : (s.ticked t).ovalid = true := (ticked_frame s t).2.2.2.2.1
@[simp] theorem inputs_ticked (s : State) (t : Topology) : (s.ticked t).inputs = s.inputs :=
  (ticked_frame s t).2.2.2.2.2.1
@[simp] theorem draws_ticked (s : State) (t : Topology) : (s.ticked t).draws = s.draws := (ticked_frame s t).2.2.2.2.2.2

/-- A channel after an UPDATE: advanced if the topology has it, unchanged otherwise. -/
theorem chan_ticked (s : State) (t : Topology) (c : Chan) :
    (s.ticked t).chan c = if c ∈ t.channels then { tw := s.tw c, acc := s.acc c + s.tw c } else s.chan c := by
  cases t <;> cases c <;> simp [State.ticked, Topology.channels, Topology.outputs, tw_eq, acc_eq]

@[simp] theorem tw_ticked (s : State) (t : Topology) (c : Chan) : (s.ticked t).tw c = s.tw c := by
  rw [tw_eq, chan_ticked]
  split <;> rfl

theorem acc_ticked (s : State) {t : Topology} {c : Chan} (hc : c ∈ t.channels) :
    (s.ticked t).acc c = s.acc c + s.tw c := by
  rw [acc_eq, chan_ticked, if_pos hc]

/-- The channel of an output is one of the topology's own (R4). -/
theorem chan_mem_channels {t : Topology} {o : OutputSpec} (ho : o ∈ t.outputs) : o.chan ∈ t.channels := by
  revert o
  cases t <;> decide

/-- An output of the topology after an UPDATE: the lookup at the advanced accumulator. -/
theorem out_ticked (s : State) {t : Topology} {o : OutputSpec} (ho : o ∈ t.outputs) :
    (s.ticked t).out o.name =
      { raw := s.rawAt (withOffset ((s.ticked t).acc o.chan) o.offset)
        smp := toSigned s.res (s.rawAt (withOffset ((s.ticked t).acc o.chan) o.offset)) } := by
  revert o
  cases t <;> simp [State.ticked, Topology.channels, Topology.outputs, acc_eq, rawAt_eq]

theorem out_ticked_of_not_mem (s : State) {t : Topology} {o : OutName} (ho : o ∉ t.outputs.map OutputSpec.name) :
    (s.ticked t).out o = s.out o := by
  cases t <;> simp_all [State.ticked, Topology.channels, Topology.outputs]

/-! ### Which commands there are -/

@[simp] theorem isBegin_beginOf (t : Topology) (p : Ports) : (beginOf t p).isBegin = true := by cases t <;> rfl
@[simp] theorem isUpdate_beginOf (t : Topology) (p : Ports) : (beginOf t p).isUpdate = false := by cases t <;> rfl
@[simp] theorem isBegin_updateOf (t : Topology) : (updateOf t).isBegin = false := by cases t <;> rfl
@[simp] theorem isUpdate_updateOf (t : Topology) : (updateOf t).isUpdate = true := by cases t <;> rfl

@[simp] theorem beginOf_ne_reset (t : Topology) (p : Ports) : beginOf t p ≠ .reset := by cases t <;> nofun
@[simp] theorem updateOf_ne_reset (t : Topology) : updateOf t ≠ .reset := by cases t <;> nofun

theorem updateOf_inj {t u : Topology} : updateOf t = updateOf u ↔ t = u := by
  cases t <;> cases u <;> decide

/-- A BEGIN with one pair of operands loads channel A alone (R48). -/
theorem B_not_mem_channels_of_C1 {t : Topology} {p : Ports} (h : (beginOf t p).format = .C1) : Chan.B ∉ t.channels := by
  cases t
  case dual => exact absurd h nofun
  all_goals decide

/-- Only DUAL has a channel B (R4). -/
theorem B_not_mem_channels_of_ne_dual {t : Topology} (h : t ≠ .dual) : Chan.B ∉ t.channels := by
  revert h
  cases t <;> decide

/-- Every command is RESET, NOP, a topology's BEGIN, a topology's UPDATE, or the reserved code (R47). -/
theorem instr_cases (i : Instr) :
    i = .reset ∨ i = .nop ∨ (∃ t p, i = beginOf t p) ∨ (∃ t, i = updateOf t) ∨ i = .reserved := by
  cases i with
  | reset => exact .inl rfl
  | nop => exact .inr (.inl rfl)
  | begin1ch a p => exact .inr (.inr (.inl ⟨.single, ⟨false, 1, a, p, 0, 0⟩, rfl⟩))
  | update1ch => exact .inr (.inr (.inr (.inl ⟨.single, rfl⟩)))
  | begin2ch a p b q => exact .inr (.inr (.inl ⟨.dual, ⟨false, 1, a, p, b, q⟩, rfl⟩))
  | update2ch => exact .inr (.inr (.inr (.inl ⟨.dual, rfl⟩)))
  | beginIq a p => exact .inr (.inr (.inl ⟨.iq, ⟨false, 1, a, p, 0, 0⟩, rfl⟩))
  | updateIq => exact .inr (.inr (.inr (.inl ⟨.iq, rfl⟩)))
  | begin3ph a p => exact .inr (.inr (.inl ⟨.threePhase, ⟨false, 1, a, p, 0, 0⟩, rfl⟩))
  | update3ph => exact .inr (.inr (.inr (.inl ⟨.threePhase, rfl⟩)))
  | reserved => exact .inr (.inr (.inr (.inr rfl)))

theorem exists_beginOf {i : Instr} (h : i.isBegin = true) : ∃ t p, i = beginOf t p := by
  obtain rfl | rfl | hb | ⟨t, rfl⟩ | rfl := instr_cases i
  case inr.inr.inl => exact hb
  case inr.inr.inr.inl => exact absurd h (by simp)
  all_goals cases h

theorem exists_updateOf {i : Instr} (h : i.isUpdate = true) : ∃ t, i = updateOf t := by
  obtain rfl | rfl | ⟨t, p, rfl⟩ | hu | rfl := instr_cases i
  case inr.inr.inr.inl => exact hu
  case inr.inr.inl => exact absurd h (by simp)
  all_goals cases h

theorem wellFormed_beginOf {t u : Topology} {p : Ports} : (beginOf t p).wellFormed u = true ↔ t = u := by
  cases t <;> cases u <;> simp [beginOf, Instr.wellFormed]

theorem wellFormed_updateOf {t u : Topology} : (updateOf t).wellFormed u = true ↔ t = u := by
  cases t <;> cases u <;> decide

/-- Everything a command that completes can do. -/
theorem exec_cases {i : Instr} {s u : State} (h : exec i s = .next u) :
    (i = .reset ∧ u = s.unspecify.setUnconfigured.clearOvalid) ∨
    (i = .nop ∧ u = s) ∨
    (∃ t p, i = beginOf t p ∧ u = s.begun t p) ∨
    (∃ t, i = updateOf t ∧ s.mode = .running ∧ u = s.ticked t) := by
  obtain rfl | rfl | ⟨t, p, rfl⟩ | ⟨t, rfl⟩ | rfl := instr_cases i
  · exact .inl ⟨rfl, (Host.Outcome.next.inj h).symm⟩
  · exact .inr (.inl ⟨rfl, (Host.Outcome.next.inj h).symm⟩)
  · rw [exec_beginOf] at h
    exact .inr (.inr (.inl ⟨t, p, rfl, (Host.Outcome.next.inj h).symm⟩))
  · rw [exec_updateOf, whenRunning_eq_next] at h
    exact .inr (.inr (.inr ⟨t, rfl, h⟩))
  · exact absurd h nofun

/-- What a port sample selects on an instance of topology `t` (R46, R47): the key's five bits run through all their values, the operands
stay free. -/
theorem decodePorts_eq (t : Topology) (p : Ports) :
    decodePorts t p =
      if p.rst then .reset else if p.cmd = 0b00 then .nop else if p.cmd = 0b01 then beginOf t p
      else if p.cmd = 0b10 then updateOf t else .reserved := by
  obtain ⟨rst, cmd, a, x, b, y⟩ := p
  have hcmd : ∀ c : BitVec 2, c = 0b00 ∨ c = 0b01 ∨ c = 0b10 ∨ c = 0b11 := by decide
  cases rst <;> cases t <;> obtain rfl | rfl | rfl | rfl := hcmd cmd <;>
    simp [decodePorts, makeKey, Topology.code, decodeKey, beginOf, updateOf]

/-- A step of an instance is a command of the instance's own block (R46). -/
theorem wellFormed_decodePorts (t : Topology) (p : Ports) : (decodePorts t p).wellFormed t = true := by
  rw [decodePorts_eq]
  split_ifs
  · rfl
  · rfl
  · exact wellFormed_beginOf.2 rfl
  · exact wellFormed_updateOf.2 rfl
  · rfl

/-! ### Frames and the lifecycle -/

/-- Settles O23: a BEGIN is its topology's pattern, which loads channels and sets `mode`. -/
theorem beginLeavesOutputsAlone : Obligations.BeginLeavesOutputsAlone := by
  intro i s u hi h
  obtain ⟨t, p, rfl⟩ := exists_beginOf hi
  rw [exec_beginOf] at h
  obtain rfl := Host.Outcome.next.inj h
  refine ⟨⟨by simp, by simp, by simp⟩, sampleAt_congr (by simp) (by simp), by simp, by simp, fun hf => ?_, by simp, by simp⟩
  rw [chan_begun, if_neg (B_not_mem_channels_of_C1 hf)]

/-- Settles O24: an UPDATE is its topology's pattern, which advances its channels, looks up its outputs and sets `ovalid`. -/
theorem updateLeavesConfigurationAlone : Obligations.UpdateLeavesConfigurationAlone := by
  intro i s u hi h
  obtain ⟨t, rfl⟩ := exists_updateOf hi
  rw [exec_updateOf, whenRunning_eq_next] at h
  obtain ⟨-, rfl⟩ := h
  have others (v : Topology) (hv : updateOf t = updateOf v) (o : OutName) (ho : o ∉ v.outputs.map OutputSpec.name) :
      (s.ticked t).out o = s.out o := by
    obtain rfl := updateOf_inj.1 hv
    exact out_ticked_of_not_mem s ho
  refine ⟨⟨by simp, by simp, by simp⟩, sampleAt_congr (by simp) (by simp), by simp, by simp, fun hd => ?_, by simp, by simp,
    fun h1 o ha => others .single h1 o ?_, fun h2 o ha hb => others .dual h2 o ?_,
    fun h3 o hI hQ => others .iq h3 o ?_, fun h4 o hU hV hW => others .threePhase h4 o ?_⟩
  · have ht : t ≠ .dual := fun e => hd (congrArg updateOf e)
    rw [chan_ticked, if_neg (B_not_mem_channels_of_ne_dual ht)]
  all_goals simp [Topology.outputs, *]

/-- Settles O29: RESET clears `mode`, NOP and UPDATE keep it, BEGIN sets it. -/
theorem modeFollowsLifecycle : Obligations.ModeFollowsLifecycle := by
  refine ⟨fun i s u h => ?_, rfl, rfl⟩
  obtain ⟨rfl, rfl⟩ | ⟨rfl, rfl⟩ | ⟨t, p, rfl, rfl⟩ | ⟨t, rfl, hm, rfl⟩ := exec_cases h
  · simp [Instr.isBegin, Instr.isUpdate]
  · simp [Instr.isBegin, Instr.isUpdate]
  · simp
  · simp [hm]

/-! ### The invariant -/

/-- The registers after RESET hold values of their types (R24). -/
theorem widthsHold_reset (s : State) : s.unspecify.setUnconfigured.clearOvalid.widthsHold := by
  intro o ho
  simp only [topo_clearOvalid, topo_setUnconfigured, topo_unspecify] at ho
  simp only [raw_eq, smp_eq, out_clearOvalid, out_setUnconfigured, out_unspecify, List.mem_map_of_mem ho, if_true,
    res_clearOvalid, res_setUnconfigured, res_unspecify]
  exact ⟨freeRawValue_lt s.res _, freeSmpValue_range s.res _⟩

/-- A table value and that value less `MID` are values of their types (R79). -/
theorem sample_in_range (r : Resolution) {raw : Nat} (h : raw ≤ r.rawMax) :
    raw < 2 ^ r.bits ∧ -(2 : Int) ^ (r.bits - 1) ≤ (raw : Int) - r.mid ∧ (raw : Int) - r.mid < (2 : Int) ^ (r.bits - 1) := by
  cases r <;> simp [Resolution.rawMax, Resolution.mid, Resolution.bits] at h ⊢ <;> omega

/-- After an UPDATE every output belongs to the current accumulator (R25 (c)). -/
theorem outputsCurrent_ticked (s : State) : (s.ticked s.topo).outputsCurrent := by
  intro o ho
  rw [topo_ticked] at ho
  rw [raw_eq, out_ticked s ho, rawAt_eq, res_ticked, lut_ticked, withOffset]

theorem smp_ticked (s : State) {t : Topology} {o : OutputSpec} (ho : o ∈ t.outputs) :
    (s.ticked t).smp o.name = (((s.ticked t).raw o.name).toNat : Int) - s.res.mid := by
  rw [smp_eq, raw_eq, out_ticked s ho, toSigned]

theorem paramsLegal_congr {s t : State} (hres : t.res = s.res) (hlut : t.lut = s.lut) : t.paramsLegal = s.paramsLegal := by
  rw [State.paramsLegal, State.paramsLegal, hres, hlut]

theorem raw_ticked_le (s : State) (hl : s.paramsLegal = true) {t : Topology} {o : OutputSpec} (ho : o ∈ t.outputs) :
    ((s.ticked t).raw o.name).toNat ≤ s.res.rawMax := by
  rw [raw_eq, out_ticked s ho]
  exact read_le_rawMax s.res s.lut _ hl

/-- The invariant does not speak of the queue. -/
theorem inv_consume {s : State} (h : s.Inv) : s.consume.Inv := h

theorem inv_reset {s : State} (h : s.Inv) : s.unspecify.setUnconfigured.clearOvalid.Inv :=
  ⟨(paramsLegal_congr (by simp) (by simp)).trans h.1, widthsHold_reset s, fun hov => absurd hov (by simp)⟩

/-- A BEGIN keeps the outputs and `ovalid`, and leaves the instance running. -/
theorem inv_begun {s : State} (h : s.Inv) (t : Topology) (p : Ports) : (s.begun t p).Inv := by
  obtain ⟨hl, hw, hv⟩ := h
  refine ⟨(paramsLegal_congr (by simp) (by simp)).trans hl, fun o ho => ?_, fun hov => ⟨by simp, fun o ho => ?_⟩⟩
  · simpa [raw_eq, smp_eq] using hw o (by simpa using ho)
  · simpa [raw_eq, smp_eq] using (hv (by simpa using hov)).2 o (by simpa using ho)

/-- An UPDATE of the instance's own block writes every output with an entry of the legal table. -/
theorem inv_ticked {s : State} (h : s.Inv) (hm : s.mode = .running) : (s.ticked s.topo).Inv := by
  obtain ⟨hl, -, -⟩ := h
  refine ⟨(paramsLegal_congr (by simp) (by simp)).trans hl, fun o ho => ?_, fun _ => ⟨by simp [hm], fun o ho => ?_⟩⟩
  all_goals
    rw [topo_ticked] at ho
    rw [smp_ticked s ho, res_ticked]
  · exact sample_in_range s.res (raw_ticked_le s hl ho)
  · exact ⟨raw_ticked_le s hl ho, rfl⟩

/-- Every command of the instance's own block keeps the invariant. -/
theorem exec_keeps_inv {i : Instr} {s u : State} (hs : s.Inv) (hi : i.wellFormed s.topo = true) (h : exec i s = .next u) :
    u.Inv := by
  obtain ⟨-, rfl⟩ | ⟨-, rfl⟩ | ⟨t, p, -, rfl⟩ | ⟨t, rfl, hm, rfl⟩ := exec_cases h
  · exact inv_reset hs
  · exact hs
  · exact inv_begun hs t p
  · obtain rfl := wellFormed_updateOf.1 hi
    exact inv_ticked hs hm

/-- Settles O26: a step performs a command of the instance's own block, and each of these keeps the invariant. -/
theorem stepKeepsInvariant : Obligations.StepKeepsInvariant := by
  intro s u hs h
  obtain ⟨-, hstep⟩ | ⟨-, hstep⟩ := step_cases s
  · exact exec_keeps_inv (inv_consume hs) (wellFormed_decodePorts s.topo s.presented) (hstep ▸ h)
  · exact absurd (hstep ▸ h) nofun

/-- An instance that has not sampled and whose output registers are zero meets the invariant if its table is legal. -/
theorem inv_of_zero_outputs {s : State} (hl : s.paramsLegal = true) (hov : s.ovalid = false)
    (hout : ∀ o, s.out o = { raw := 0, smp := 0 }) : s.Inv := by
  refine ⟨hl, fun o _ => ?_, fun h => absurd h (by simp [hov])⟩
  rw [raw_eq, smp_eq, hout]
  cases s.res <;> decide

/-- Settles O27: the state after reset and every built instance have a legal table, `ovalid` clear and zero outputs. -/
theorem invariantHoldsAtReset : Obligations.InvariantHoldsAtReset := by
  refine ⟨inv_of_zero_outputs reset_memory_wf rfl fun o => by cases o <;> rfl, fun t r entries s h => ?_⟩
  by_cases hl : entriesLegal r entries = true
  · rw [build_of_legal t r entries hl] at h
    obtain rfl := Host.Outcome.next.inj h
    exact inv_of_zero_outputs (ofEntries_wf r entries hl) rfl fun o => by cases o <;> rfl
  · rw [build_of_not_legal t r entries hl] at h
    exact absurd h nofun

/-! ### Who writes what, and streams -/

/-- Settles O30: each row of R22's table is what the pattern of that command leaves in each register. -/
theorem registersWrittenOnlyByListedCommands : Obligations.RegistersWrittenOnlyByListedCommands := by
  intro s
  refine ⟨⟨_, rfl, by simp, by simp, widthsHold_reset s⟩, fun p => ⟨_, exec_beginOf s.topo p s, by simp, by simp, ?_, ?_⟩,
    fun hm => ⟨_, exec_updateOf_of_running hm s.topo, by simp, by simp, ?_, ?_⟩, rfl⟩
  · intro c hc
    simp [tw_eq, acc_eq, chan_begun, hc]
  · intro o _
    simp [raw_eq, smp_eq]
  · intro c hc
    exact ⟨tw_ticked s s.topo c, acc_ticked s hc⟩
  · intro o ho
    refine ⟨?_, smp_ticked s ho⟩
    rw [raw_eq, out_ticked s ho, acc_ticked s (chan_mem_channels ho), rawAt_eq, withOffset]

/-- A stream completes exactly when all but its last command do and then the last one does. -/
theorem execAll_concat {is : List Instr} {i : Instr} {s u : State} :
    execAll (is ++ [i]) s = .next u ↔ ∃ t, execAll is s = .next t ∧ exec i t = .next u := by
  induction is generalizing s with
  | nil => cases h : exec i s <;> simp [execAll, h]
  | cons j is ih => cases h : exec j s <;> simp [execAll, h, ih]

/-- No stream writes a parameter of the instance. -/
theorem execAll_sameParams {is : List Instr} {s u : State} (h : execAll is s = .next u) : s.sameParams u := by
  induction is using List.reverseRecOn generalizing u with
  | nil =>
    obtain rfl := Host.Outcome.next.inj h
    exact ⟨rfl, rfl, rfl⟩
  | append_singleton is i ih =>
    obtain ⟨t, ht, hi⟩ := execAll_concat.1 h
    obtain ⟨htopo, hres, hlut⟩ := ih ht
    obtain ⟨htopo', hres', hlut', -⟩ := exec_frame i t u hi
    exact ⟨htopo'.trans htopo, hres'.trans hres, hlut'.trans hlut⟩

theorem latestCommand_concat (is : List Instr) (i : Instr) :
    latestCommand (is ++ [i]) = if i = .nop then latestCommand is else i := by
  simp [latestCommand]

/-- Settles O31, by induction on the stream from its end: NOPs after the latest command change nothing, and that command, an UPDATE of
the instance's own block, has just looked every output up. -/
theorem outputsFollowCurrentAccumulator : Obligations.OutputsFollowCurrentAccumulator := by
  intro is s u hwf h hlast
  induction is using List.reverseRecOn generalizing u with
  | nil => exact absurd hlast nofun
  | append_singleton is i ih =>
    obtain ⟨t, ht, hi⟩ := execAll_concat.1 h
    rw [latestCommand_concat] at hlast
    split_ifs at hlast with hnop
    · obtain rfl : t = u := by
        rw [hnop] at hi
        exact Host.Outcome.next.inj hi
      exact ih t (fun j hj => hwf j (List.mem_append_left _ hj)) ht hlast
    · obtain ⟨v, rfl⟩ := exists_updateOf hlast
      obtain ⟨htopo, -, -⟩ := execAll_sameParams ht
      obtain rfl : v = t.topo := (wellFormed_updateOf.1 (hwf _ (by simp))).trans htopo.symm
      rw [exec_updateOf, whenRunning_eq_next] at hi
      obtain ⟨-, rfl⟩ := hi
      exact outputsCurrent_ticked t

end Sys2Proof.Machine
end

section
/-! SUPPORT. Streams, runs, systems and the table as data (20_memory.md): a run of port samples as its commands (R34), the parameters along
a run (R27), interleavings of instances (R38), and the table space (R26). -/

namespace Sys2Proof.Machine

/-! ### A run of port samples is the stream of their commands -/

/-- The port sample that presents a command of the instance's own block selects that command (R46, R48). -/
theorem decodePorts_toPorts {t : Topology} {i : Instr} (h : i.wellFormed t = true) : decodePorts t i.toPorts = i := by
  rw [decodePorts_eq]
  cases i
  case reset | nop | reserved => rfl
  all_goals
    obtain rfl := of_decide_eq_true h
    rfl

/-- A step that presents a command of the instance's own block performs it. -/
theorem step_toPorts {s : State} {i : Instr} {ps : List Ports} (hl : s.paramsLegal = true) (hi : i.wellFormed s.topo = true)
    (hq : s.inputs = i.toPorts :: ps) : step s = exec i s.consume := by
  rw [step, if_pos hl, presented_cons s _ ps hq, decodePorts_toPorts hi]

/-- Settles O7, by induction on the commands: a step performs the first of them whatever the queue holds (`exec_inputs`), and leaves a
legal instance of the same topology with the rest queued. -/
theorem streamIsCompositionOfCommands : Obligations.StreamIsCompositionOfCommands := by
  intro is
  induction is with
  | nil =>
    intro s _ _ hq
    have hempty : ({ s with inputs := [] } : State) = s := congrArg (fun q => ({ s with inputs := q } : State)) hq.symm
    rw [hempty, runInputs, hq]
    rfl
  | cons i is ih =>
    intro s hl hwf hq
    have hstep : step s = exec i s.consume := step_toPorts hl (hwf i List.mem_cons_self) hq
    have hexec : exec i { s with inputs := [] } = _ := exec_inputs i s.consume []
    rw [runInputs, hq, List.map_cons, List.length_cons, runSteps_succ, hstep, execAll, hexec]
    cases h : exec i s.consume with
    | next t =>
      obtain ⟨htopo, hres, hlut, hinputs⟩ := exec_frame i s.consume t h
      have hqt : t.inputs = is.map Instr.toPorts := by rw [hinputs, inputs_consume, hq, List.map_cons, List.tail_cons]
      have hrest : runInputs t = execAll is { t with inputs := [] } :=
        ih t ((paramsLegal_congr hres hlut).trans hl) (fun j hj => htopo ▸ hwf j (List.mem_cons_of_mem _ hj)) hqt
      rw [runInputs, hqt] at hrest
      exact hrest
    | fault e => rfl
    | refused e => rfl

/-! ### The parameters along a run -/

theorem sameParams_trans {s t u : State} (hst : s.sameParams t) (htu : t.sameParams u) : s.sameParams u := by
  obtain ⟨htopo, hres, hlut⟩ := hst
  obtain ⟨htopo', hres', hlut'⟩ := htu
  exact ⟨htopo'.trans htopo, hres'.trans hres, hlut'.trans hlut⟩

theorem step_sameParams {s t : State} (h : step s = .next t) : s.sameParams t := by
  obtain ⟨-, hs⟩ | ⟨-, hs⟩ := step_cases s
  · obtain ⟨htopo, hres, hlut, -⟩ := exec_frame _ _ _ (hs ▸ h)
    exact ⟨htopo, hres, hlut⟩
  · exact absurd (hs ▸ h) nofun

/-- A run completes exactly when its first step does and the rest completes from there. -/
theorem runSteps_succ_eq_next {n : Nat} {s t : State} :
    runSteps (n + 1) s = .next t ↔ ∃ u, step s = .next u ∧ runSteps n u = .next t := by
  cases h : step s <;> simp [runSteps_succ, h]

theorem runSteps_sameParams {n : Nat} {s t : State} (h : runSteps n s = .next t) : s.sameParams t := by
  induction n generalizing s with
  | zero =>
    obtain rfl := Host.Outcome.next.inj h
    exact ⟨rfl, rfl, rfl⟩
  | succ n ih =>
    obtain ⟨u, hu, hrest⟩ := runSteps_succ_eq_next.1 h
    exact sameParams_trans (step_sameParams hu) (ih hrest)

/-- Settles O28: no step writes a parameter, and a read depends on the resolution and the table alone. -/
theorem tableIsNeverWritten : Obligations.TableIsNeverWritten := by
  refine ⟨fun n s t h => runSteps_sameParams h, fun n m s t s' t' hres hlut h h' k => ?_⟩
  obtain ⟨-, htres, htlut⟩ := runSteps_sameParams h
  obtain ⟨-, htres', htlut'⟩ := runSteps_sameParams h'
  have hread : t.sampleAt k = s.sampleAt k := sampleAt_congr htres htlut k
  have hread' : t'.sampleAt k = s.sampleAt k := sampleAt_congr (htres'.trans hres) (htlut'.trans hlut) k
  exact ⟨hread'.trans hread.symm, hread⟩

/-! ### Interleavings -/

/-- A place in a system, advanced again and again from a state, holds what the instance's own run has come to: `advance` keeps a stop. -/
theorem iterate_advance_next (n : Nat) (s : State) : advance^[n] (.next s) = runSteps n s := by
  induction n generalizing s with
  | zero => rfl
  | succ n ih =>
    rw [Function.iterate_succ_apply, advance_next, runSteps_succ]
    cases step s with
    | next t => exact ih t
    | fault e => exact Function.iterate_fixed (advance_fault e) n
    | refused e => exact Function.iterate_fixed (advance_refused e) n

@[simp] theorem length_stepInstances (order : List Nat) (sys : System) : (stepInstances order sys).length = sys.length := by
  induction order generalizing sys with
  | nil => rfl
  | cons k ks ih => rw [stepInstances_cons, ih, length_stepInstance]

/-- After an interleaving a place depends on its own steps alone: it has advanced as often as the order names it (R38). -/
theorem getElem?_stepInstances (order : List Nat) (sys : System) (j : Nat) :
    (stepInstances order sys)[j]? = sys[j]?.map advance^[order.count j] := by
  induction order generalizing sys with
  | nil => exact Option.map_id'.symm
  | cons k ks ih =>
    rw [stepInstances_cons, ih, getElem?_stepInstance]
    by_cases h : j = k
    · subst h
      rw [if_pos rfl, List.count_cons_self, Option.map_map, Function.iterate_succ]
    · rw [if_neg h, List.count_cons_of_ne (Ne.symm h)]

/-- Settles O48: what an interleaving does to a place is read off the number of its own steps (`getElem?_stepInstances`), and these are the
steps of a run. -/
theorem interleavingsGiveSameStates : Obligations.InterleavingsGiveSameStates := by
  refine ⟨fun k sys => ⟨length_stepInstance k sys, fun s hs => ?_, fun j hj => ?_⟩,
    fun order sys => ⟨length_stepInstances order sys, fun k s t hs => ?_⟩, fun order order' sys hcount k t => ?_⟩
  · simp [getElem?_stepInstance, hs]
  · rw [getElem?_stepInstance, if_neg hj]
  · rw [getElem?_stepInstances, hs, Option.map_some, iterate_advance_next, Option.some_inj]
  · rw [getElem?_stepInstances, getElem?_stepInstances, hcount]

/-! ### The table space as data -/

/-- An entry put before cells that do not list its index, or left out if it is the unlisted value, reads back either way. -/
theorem read_cell_or_none (r : Resolution) {m : Memory} {i : Nat} (v : Raw) (h : ∀ c ∈ m, c.1 ≠ i) (k : Nat) :
    Memory.read r (if v = Memory.unlisted r then m else (i, v) :: m) k = if k = i then v else Memory.read r m k := by
  by_cases hk : k = i
  · subst hk
    split
    next hv => simp [read_of_not_listed r m k h, hv]
    next => simp [Memory.read]
  · rw [if_neg hk]
    split
    next => rfl
    next => rw [Memory.read, if_neg (Ne.symm hk)]

/-- A supplied entry of a canonical table reads back, and no other read changes. -/
theorem read_supply (r : Resolution) {m : Memory} (i k : Nat) (v : Raw) (h : Memory.wf r m = true) :
    Memory.read r (Memory.supply r i v m) k = if k = i then v else Memory.read r m k := by
  induction m with
  | nil => exact read_cell_or_none r v (by simp) k
  | cons c m ih =>
    obtain ⟨j, w⟩ := c
    obtain ⟨-, hlt, hm⟩ := (wf_cons r (j, w) m).1 h
    rcases lt_trichotomy i j with hij | rfl | hij
    · have hfirst : ∀ c ∈ (j, w) :: m, c.1 ≠ i := by
        rintro c (_ | ⟨_, hc⟩)
        · exact Nat.ne_of_gt hij
        · exact Nat.ne_of_gt (hij.trans (hlt c hc))
      rw [Memory.supply, if_pos hij]
      exact read_cell_or_none r v hfirst k
    · rw [Memory.supply, if_neg (lt_irrefl i), if_pos rfl, read_cell_or_none r v fun c hc => Nat.ne_of_gt (hlt c hc)]
      by_cases hk : k = i
      · rw [if_pos hk, if_pos hk]
      · rw [if_neg hk, if_neg hk, Memory.read, if_neg (Ne.symm hk)]
    · rw [Memory.supply, if_neg (Nat.lt_asymm hij), if_neg (Nat.ne_of_gt hij)]
      by_cases hk : j = k
      · subst hk
        rw [if_neg (Nat.ne_of_lt hij), Memory.read, Memory.read, if_pos rfl, if_pos rfl]
      · rw [Memory.read, Memory.read, if_neg hk, if_neg hk, ih hm]

/-- The cells of a canonical table are its entries other than the unlisted value. -/
theorem mem_iff_read (r : Resolution) {m : Memory} (h : Memory.wf r m = true) (c : Nat × Raw) :
    c ∈ m ↔ Memory.read r m c.1 = c.2 ∧ c.2 ≠ Memory.unlisted r := by
  induction m with
  | nil => simp [Memory.read, eq_comm]
  | cons d m ih =>
    obtain ⟨hd, hlt, hm⟩ := (wf_cons r d m).1 h
    obtain ⟨-, -, hne⟩ := (cellLegal_iff r d).1 hd
    rw [List.mem_cons, ih hm]
    by_cases hc : d.1 = c.1
    · have later : Memory.read r m c.1 = Memory.unlisted r :=
        read_of_not_listed r m c.1 fun e he => hc ▸ Nat.ne_of_gt (hlt e he)
      simp only [Memory.read, if_pos hc, later]
      constructor
      · rintro (rfl | ⟨hu, hnu⟩)
        · exact ⟨rfl, hne⟩
        · exact absurd hu.symm hnu
      · exact fun ⟨hv, _⟩ => .inl (Prod.ext hc.symm hv.symm)
    · simp only [Memory.read, if_neg hc]
      constructor
      · rintro (rfl | hread)
        · exact absurd rfl hc
        · exact hread
      · exact .inr

/-- The cells of a canonical table are sorted by their indices. -/
theorem pairwise_of_wf (r : Resolution) {m : Memory} (h : Memory.wf r m = true) : m.Pairwise (fun c d => c.1 < d.1) := by
  induction m with
  | nil => exact List.Pairwise.nil
  | cons c m ih =>
    obtain ⟨-, hlt, hm⟩ := (wf_cons r c m).1 h
    exact List.Pairwise.cons hlt (ih hm)

/-- Settles O52: reads decide which cells a canonical table has (`mem_iff_read`), and a sorted list is decided by its members. -/
theorem tableReadsBackAndIsCanonical : Obligations.TableReadsBackAndIsCanonical := by
  refine ⟨fun r m i k v h => read_supply r i k v h, fun r m m' h h' hread => ?_⟩
  have hmem (c : Nat × Raw) : c ∈ m ↔ c ∈ m' := by
    rw [mem_iff_read r h, mem_iff_read r h', hread]
  exact (pairwise_of_wf r h).eq_of_mem_iff (pairwise_of_wf r h') hmem

end Sys2Proof.Machine
end

section
/-! SUPPORT. The encoding (30_encoding.md): transaction words packed and unpacked (R48), keys and rows (R46, R47), decode and encode as
inverses, the presented step (R45), the output ports (R51), and the host's shorthands and trace lines (R53, R54). -/

namespace Sys2Proof.Machine

open Sys2Proof.Laws

/-! ### Transaction words (R48) -/

/-- An operand word appended to a transaction word leaves the bits above it as they were. -/
theorem append_shiftRight (n lo : Nat) (w : Word) : (n * 2 ^ 32 + w.toNat) >>> (lo + 32) = n >>> lo := by
  have hn : (n * 2 ^ 32 + w.toNat) / 2 ^ 32 = n := by
    have := w.isLt
    omega
  rw [Nat.add_comm lo, Nat.shiftRight_add, Nat.shiftRight_eq_div_pow _ 32, hn]

theorem wordAt_append (n lo : Nat) (w : Word) : wordAt (n * 2 ^ 32 + w.toNat) (lo + 32) = wordAt n lo := by
  rw [wordAt, append_shiftRight, wordAt]

theorem wordAt_append_zero (n : Nat) (w : Word) : wordAt (n * 2 ^ 32 + w.toNat) 0 = w := by
  apply BitVec.eq_of_toNat_eq
  have := w.isLt
  simp only [wordAt, Nat.shiftRight_zero, BitVec.toNat_ofNat]
  omega

/-- The word at `lo`, appended to the bits above it, gives the bits from `lo` on. -/
theorem append_wordAt (T lo : Nat) : T >>> (lo + 32) * 2 ^ 32 + (wordAt T lo).toNat = T >>> lo := by
  rw [Nat.shiftRight_add, Nat.shiftRight_eq_div_pow _ 32, wordAt, BitVec.toNat_ofNat]
  omega

/-- The key on top of `n` bits of operands is whole. -/
theorem toNat_key {T n : Nat} (h : T < 2 ^ (5 + n)) : (BitVec.ofNat 5 (T >>> n)).toNat = T >>> n := by
  rw [BitVec.toNat_ofNat]
  apply Nat.mod_eq_of_lt
  rw [Nat.shiftRight_eq_div_pow]
  exact Nat.div_lt_of_lt_mul (by rwa [← pow_add, Nat.add_comm])

theorem word_concat (k : Key) (ops : List Word) (w : Word) :
    Transaction.word ⟨k, ops ++ [w]⟩ = Transaction.word ⟨k, ops⟩ * 2 ^ 32 + w.toNat := by
  simp [Transaction.word]

theorem width_concat (k : Key) (ops : List Word) (w : Word) :
    Transaction.width ⟨k, ops ++ [w]⟩ = Transaction.width ⟨k, ops⟩ + 32 := by
  simp only [Transaction.width, List.length_append, List.length_singleton]
  omega

/-- A transaction word fits its width. -/
theorem word_lt (x : Transaction) : x.word < 2 ^ x.width := by
  obtain ⟨k, ops⟩ := x
  induction ops using List.reverseRecOn with
  | nil => exact k.isLt
  | append_singleton ops w ih =>
    have hw := w.isLt
    rw [word_concat, width_concat, Nat.pow_add]
    omega

/-! The three widths of R48, one equation each. -/

theorem unpackWord_5 {T : Nat} (h : T < 2 ^ 5) : unpackWord 5 T = .ok { key := BitVec.ofNat 5 T, operands := [] } := by
  rw [unpackWord, if_neg (Nat.not_le.2 h), if_pos rfl]

theorem unpackWord_69 {T : Nat} (h : T < 2 ^ 69) :
    unpackWord 69 T = .ok { key := BitVec.ofNat 5 (T >>> 64), operands := [wordAt T 32, wordAt T 0] } := by
  rw [unpackWord, if_neg (Nat.not_le.2 h), if_neg (by decide), if_pos rfl]

theorem unpackWord_133 {T : Nat} (h : T < 2 ^ 133) :
    unpackWord 133 T =
      .ok { key := BitVec.ofNat 5 (T >>> 128), operands := [wordAt T 96, wordAt T 64, wordAt T 32, wordAt T 0] } := by
  rw [unpackWord, if_neg (Nat.not_le.2 h), if_neg (by decide), if_neg (by decide), if_pos rfl]

/-- A word that unpacks has one of the three widths and fits it. -/
theorem lt_of_unpackWord {width T : Nat} {x : Transaction} (h : unpackWord width T = .ok x) :
    T < 2 ^ width ∧ (width = 5 ∨ width = 69 ∨ width = 133) := by
  unfold unpackWord at h
  split_ifs at h with hT h5 h69 h133
  · exact ⟨Nat.not_le.1 hT, .inl h5⟩
  · exact ⟨Nat.not_le.1 hT, .inr (.inl h69)⟩
  · exact ⟨Nat.not_le.1 hT, .inr (.inr h133)⟩

/-- A packed transaction of a format of R48 unpacks to itself. -/
theorem unpackWord_word {x : Transaction} {f : Format} (h : x.operands.length = f.operandCount) :
    unpackWord x.width x.word = .ok x := by
  have hlt := word_lt x
  obtain ⟨k, ops⟩ := x
  cases f with
  | C0 =>
    obtain rfl := List.length_eq_zero_iff.1 h
    refine (unpackWord_5 hlt).trans ?_
    rw [show Transaction.word ⟨k, []⟩ = k.toNat from rfl, BitVec.ofNat_toNat, BitVec.setWidth_eq]
  | C1 =>
    obtain ⟨a, p, rfl⟩ := List.length_eq_two.1 h
    have hk : Transaction.word ⟨k, [a, p]⟩ >>> 64 = k.toNat := (append_shiftRight _ 32 p).trans (append_shiftRight _ 0 a)
    have ha : wordAt (Transaction.word ⟨k, [a, p]⟩) 32 = a := (wordAt_append _ 0 p).trans (wordAt_append_zero _ a)
    have hp : wordAt (Transaction.word ⟨k, [a, p]⟩) 0 = p := wordAt_append_zero _ p
    refine (unpackWord_69 hlt).trans ?_
    rw [hk, ha, hp, BitVec.ofNat_toNat, BitVec.setWidth_eq]
  | C2 =>
    match ops, h with
    | [a, p, b, q], _ =>
      have hk : Transaction.word ⟨k, [a, p, b, q]⟩ >>> 128 = k.toNat :=
        ((append_shiftRight _ 96 q).trans (append_shiftRight _ 64 b)).trans
          ((append_shiftRight _ 32 p).trans (append_shiftRight _ 0 a))
      have ha : wordAt (Transaction.word ⟨k, [a, p, b, q]⟩) 96 = a :=
        (wordAt_append _ 64 q).trans ((wordAt_append _ 32 b).trans ((wordAt_append _ 0 p).trans (wordAt_append_zero _ a)))
      have hp : wordAt (Transaction.word ⟨k, [a, p, b, q]⟩) 64 = p :=
        (wordAt_append _ 32 q).trans ((wordAt_append _ 0 b).trans (wordAt_append_zero _ p))
      have hb : wordAt (Transaction.word ⟨k, [a, p, b, q]⟩) 32 = b := (wordAt_append _ 0 q).trans (wordAt_append_zero _ b)
      have hq : wordAt (Transaction.word ⟨k, [a, p, b, q]⟩) 0 = q := wordAt_append_zero _ q
      refine (unpackWord_133 hlt).trans ?_
      rw [hk, ha, hp, hb, hq, BitVec.ofNat_toNat, BitVec.setWidth_eq]

/-- A word that unpacks is the packed word of its transaction. -/
theorem word_of_unpackWord {width T : Nat} {x : Transaction} (h : unpackWord width T = .ok x) :
    x.width = width ∧ x.word = T := by
  obtain ⟨hT, rfl | rfl | rfl⟩ := lt_of_unpackWord h
  · rw [unpackWord_5 hT] at h
    obtain rfl := Except.ok.inj h
    exact ⟨rfl, toNat_key (n := 0) hT⟩
  · rw [unpackWord_69 hT] at h
    obtain rfl := Except.ok.inj h
    refine ⟨rfl, ?_⟩
    simp only [Transaction.word, List.foldl_cons, List.foldl_nil, toNat_key (n := 64) hT]
    rw [append_wordAt T 32, append_wordAt T 0, Nat.shiftRight_zero]
  · rw [unpackWord_133 hT] at h
    obtain rfl := Except.ok.inj h
    refine ⟨rfl, ?_⟩
    simp only [Transaction.word, List.foldl_cons, List.foldl_nil, toNat_key (n := 128) hT]
    rw [append_wordAt T 96, append_wordAt T 64, append_wordAt T 32, append_wordAt T 0, Nat.shiftRight_zero]

/-! ### Keys and rows (R46, R47) -/

/-- Every key is made of a reset bit, a strap and a command (R46). -/
theorem exists_makeKey (k : Key) : ∃ rst t cmd, k = makeKey rst t cmd := by
  refine ⟨k.getLsbD 4, Topology.ofCode (k.extractLsb' 2 2), k.extractLsb' 0 2, ?_⟩
  revert k
  decide

/-- What a key selects, its parts named (`decodePorts_eq`). -/
theorem decodeKey_makeKey (rst : Bool) (t : Topology) (cmd : BitVec 2) (a p b q : Word) :
    decodeKey (makeKey rst t cmd) a p b q =
      if rst then .reset else if cmd = 0b00 then .nop else if cmd = 0b01 then beginOf t ⟨rst, cmd, a, p, b, q⟩
      else if cmd = 0b10 then updateOf t else .reserved :=
  decodePorts_eq t ⟨rst, cmd, a, p, b, q⟩

/-- What an instruction is apart from its operands, the key alone decides. -/
theorem decodeKey_congr {α : Type} (f : Instr → α) (hf : ∀ t p, f (beginOf t p) = f (beginOf t Ports.idle)) (k : Key)
    (a p b q : Word) : f (decodeKey k a p b q) = f (decodeKey k 0 0 0 0) := by
  obtain ⟨rst, t, cmd, rfl⟩ := exists_makeKey k
  rw [decodeKey_makeKey, decodeKey_makeKey]
  split_ifs
  · rfl
  · rfl
  · exact (hf t _).trans (hf t _).symm
  · rfl
  · rfl

theorem rowOf_decodeKey (k : Key) (a p b q : Word) : rowOf (decodeKey k a p b q) = rowOf (decodeKey k 0 0 0 0) :=
  decodeKey_congr rowOf (fun t p => by cases t <;> rfl) k a p b q

theorem format_decodeKey (k : Key) (a p b q : Word) : (decodeKey k a p b q).format = (decodeKey k 0 0 0 0).format :=
  decodeKey_congr Instr.format (fun t p => by cases t <;> rfl) k a p b q

theorem wellFormed_decodeKey (k : Key) (a p b q : Word) (t : Topology) :
    (decodeKey k a p b q).wellFormed t = (decodeKey k 0 0 0 0).wellFormed t :=
  decodeKey_congr (Instr.wellFormed t) (fun u p => by cases u <;> rfl) k a p b q

/-- A key lies in the row of the instruction it selects (R47). -/
theorem decodeKey_mem_row (k : Key) (a p b q : Word) :
    k &&& (rowOf (decodeKey k a p b q)).1 = (rowOf (decodeKey k a p b q)).2 := by
  rw [rowOf_decodeKey]
  revert k
  decide

theorem mem_row_of_decodeKey_eq {k : Key} {a p b q : Word} {i : Instr} (h : decodeKey k a p b q = i) :
    k &&& (rowOf i).1 = (rowOf i).2 := h ▸ decodeKey_mem_row k a p b q

/-- A row that masks no bit of the key holds one key. -/
theorem key_of_decodeKey_eq {k : Key} {a p b q : Word} {i : Instr} (h : decodeKey k a p b q = i) (hi : (rowOf i).1 = 0x1F) :
    k = (rowOf i).2 := by
  have full : ∀ k : Key, k &&& 0x1F = k := by decide
  rw [← mem_row_of_decodeKey_eq h, hi, full]

/-! ### Decode and encode -/

theorem operands_encode_length (t : Topology) (i : Instr) : (encode t i).operands.length = i.format.operandCount := by
  cases i <;> rfl

theorem decodeWord_eq_ok {width T : Nat} {i : Instr} :
    decodeWord width T = .ok i ↔ ∃ x, unpackWord width T = .ok x ∧ decode x = .ok i := by
  cases h : unpackWord width T <;> simp [decodeWord, h]

theorem decode_encode (t : Topology) (i : Instr) : decode (encode t i) = .ok i := by
  cases i
  case reset | nop | reserved => cases t <;> rfl
  all_goals simp [encode, decode, decodeKey, expectFormat, Instr.format]

/-- The transaction word of an instruction decodes to it (R47, R48). -/
theorem decodeWord_encode (t : Topology) (i : Instr) : decodeWord (encode t i).width (encode t i).word = .ok i :=
  decodeWord_eq_ok.2 ⟨_, unpackWord_word (operands_encode_length t i), decode_encode t i⟩

/-- Settles O4: the packed transaction unpacks to itself (`unpackWord_word`) and decodes to its instruction, and the port sample
selects the instruction on an instance of its block (`decodePorts_toPorts`). -/
theorem encodedInstructionsDecodeBack : Obligations.EncodedInstructionsDecodeBack :=
  fun t i => ⟨decodeWord_encode t i, decodePorts_toPorts⟩

theorem expectFormat_eq_ok {f : Format} {i j : Instr} : expectFormat f i = .ok j ↔ i.format = f ∧ i = j := by
  by_cases h : i.format = f <;> simp [expectFormat, h]

/-- A transaction that decodes holds the instruction's key and exactly the operands of its format. -/
theorem key_and_operands_of_decode {x : Transaction} {i : Instr} (h : decode x = .ok i) :
    ∃ a p b q, i = decodeKey x.key a p b q ∧ x.operands = [a, p, b, q].take i.format.operandCount := by
  obtain ⟨k, ops⟩ := x
  unfold decode at h
  split at h
  case h_1 hops =>
    obtain ⟨hf, rfl⟩ := expectFormat_eq_ok.1 h
    exact ⟨0, 0, 0, 0, rfl, by rw [hf]; exact hops⟩
  case h_2 a p hops =>
    obtain ⟨hf, rfl⟩ := expectFormat_eq_ok.1 h
    exact ⟨a, p, 0, 0, rfl, by rw [hf]; exact hops⟩
  case h_3 a p b q hops =>
    obtain ⟨hf, rfl⟩ := expectFormat_eq_ok.1 h
    exact ⟨a, p, b, q, rfl, by rw [hf]; exact hops⟩
  case h_4 => cases h

/-- Encoding what a key without `rst` selects gives the key back, with the operands of its format. -/
theorem encode_decodeKey (t : Topology) (cmd : BitVec 2) (a p b q : Word) :
    encode t (decodeKey (makeKey false t cmd) a p b q) =
      { key := makeKey false t cmd
        operands := [a, p, b, q].take (decodeKey (makeKey false t cmd) a p b q).format.operandCount } := by
  have hcmd : ∀ c : BitVec 2, c = 0b00 ∨ c = 0b01 ∨ c = 0b10 ∨ c = 0b11 := by decide
  obtain rfl | rfl | rfl | rfl := hcmd cmd <;> cases t <;> rfl

/-- A transaction that decodes to a command other than RESET is the encoder's on the topology of its key. -/
theorem encode_of_decode {x : Transaction} {i : Instr} (h : decode x = .ok i) (hi : i ≠ .reset) :
    ∃ t, i.wellFormed t = true ∧ encode t i = x := by
  obtain ⟨a, p, b, q, rfl, hops⟩ := key_and_operands_of_decode h
  obtain ⟨k, ops⟩ := x
  obtain ⟨rst, t, cmd, rfl⟩ := exists_makeKey k
  cases rst with
  | false =>
    refine ⟨t, wellFormed_decodePorts t ⟨false, cmd, a, p, b, q⟩, ?_⟩
    rw [encode_decodeKey, ← hops]
  | true => exact absurd (decodeKey_makeKey true t cmd a p b q) hi

/-- A transaction that decodes to RESET is a key with `rst` set. -/
theorem of_decode_reset {x : Transaction} (h : decode x = .ok .reset) : x.operands = [] ∧ 16 ≤ x.key.toNat := by
  have rst_set : ∀ k : Key, k &&& 0x10 = 0x10 → 16 ≤ k.toNat := by decide
  obtain ⟨a, p, b, q, hkey, hops⟩ := key_and_operands_of_decode h
  exact ⟨hops, rst_set x.key (mem_row_of_decodeKey_eq hkey.symm)⟩

/-- Settles O5: a word that unpacks is the packed word of its transaction (`word_of_unpackWord`), and a transaction that decodes is the
encoder's, but for the ignored bits of a RESET. -/
theorem decodedWordsEncodeBack : Obligations.DecodedWordsEncodeBack := by
  intro width T i h
  obtain ⟨x, hx, hdecode⟩ := decodeWord_eq_ok.1 h
  obtain ⟨rfl, rfl⟩ := word_of_unpackWord hx
  refine ⟨fun hi => ?_, ?_⟩
  · obtain ⟨t, hwf, rfl⟩ := encode_of_decode hdecode hi
    exact ⟨t, hwf, rfl, rfl⟩
  · rintro rfl
    obtain ⟨k, ops⟩ := x
    obtain ⟨rfl, hk⟩ := of_decode_reset hdecode
    exact ⟨rfl, hk, k.isLt⟩

/-! ### The opcode map -/

/-- Settles O1: a key lies in the row of what it decodes to (`mem_row_of_decodeKey_eq`), every key of a row decodes to the row's
instruction, and format and block are read off the key alone. -/
theorem opcodeMapPartitionsKeys : Obligations.OpcodeMapPartitionsKeys := by
  have keys_nop : ∀ k : Key, k &&& 0x13 = 0x00 → k = 0x00 ∨ k = 0x04 ∨ k = 0x08 ∨ k = 0x0C := by decide
  have keys_reserved : ∀ k : Key, k &&& 0x13 = 0x03 → k = 0x03 ∨ k = 0x07 ∨ k = 0x0B ∨ k = 0x0F := by decide
  intro k a p b q
  refine ⟨⟨mem_row_of_decodeKey_eq, fun h => if_pos h⟩, ⟨mem_row_of_decodeKey_eq, fun h => ?nop⟩,
    ⟨(key_of_decodeKey_eq · rfl), ?_⟩, ⟨(key_of_decodeKey_eq · rfl), ?_⟩, ⟨(key_of_decodeKey_eq · rfl), ?_⟩,
    ⟨(key_of_decodeKey_eq · rfl), ?_⟩, ⟨(key_of_decodeKey_eq · rfl), ?_⟩, ⟨(key_of_decodeKey_eq · rfl), ?_⟩,
    ⟨(key_of_decodeKey_eq · rfl), ?_⟩, ⟨(key_of_decodeKey_eq · rfl), ?_⟩,
    ⟨mem_row_of_decodeKey_eq, fun h => ?reserved⟩, ?formatC1, ?formatC2, fun t => ?block⟩
  case nop => obtain rfl | rfl | rfl | rfl := keys_nop k h <;> rfl
  case reserved => obtain rfl | rfl | rfl | rfl := keys_reserved k h <;> rfl
  case formatC1 | formatC2 =>
    rw [format_decodeKey]
    revert k
    decide
  case block =>
    rw [wellFormed_decodeKey]
    revert k
    cases t <;> decide
  all_goals
    rintro rfl
    rfl

/-- Settles O3: a port sample selects RESET, NOP, the reserved code, or the BEGIN or UPDATE of the instance's own topology. -/
theorem portsDecodeToOwnBlock : Obligations.PortsDecodeToOwnBlock := wellFormed_decodePorts

/-- Settles O2: the words are the encoder's, but for the RESET whose ignored bits are set. -/
theorem writtenOutTransactionsDecode : Obligations.WrittenOutTransactionsDecode :=
  ⟨decodeWord_encode .single .reset, rfl, decodeWord_encode .threePhase .nop,
    decodeWord_encode .single (.begin1ch 0x1999999A 0x00000000), decodeWord_encode .single .update1ch,
    decodeWord_encode .dual (.begin2ch 0x10000000 0x00000000 0x30000000 0x80000000), decodeWord_encode .dual .update2ch,
    decodeWord_encode .iq (.beginIq 0x40000000 0xC0000000), decodeWord_encode .iq .updateIq,
    decodeWord_encode .threePhase (.begin3ph 0x2AAAAAAB 0x80000000), decodeWord_encode .threePhase .update3ph,
    decodeWord_encode .iq .reserved⟩

/-! ### The step -/

theorem consume_cons {s : State} {p : Ports} {ps : List Ports} (h : s.inputs = p :: ps) :
    s.consume = { s with inputs := ps } := by
  rw [State.consume, h, List.tail_cons]

theorem consume_nil {s : State} (h : s.inputs = []) : s.consume = s := by
  rw [State.consume, h, List.tail_nil, ← h]

/-- A step of a legal instance performs the command its first queued sample selects. -/
theorem step_cons {s : State} {p : Ports} {ps : List Ports} (hl : s.paramsLegal = true) (hq : s.inputs = p :: ps) :
    step s = exec (decodePorts s.topo p) { s with inputs := ps } := by
  rw [step, if_pos hl, presented_cons s p ps hq, consume_cons hq]

/-- A table word that decodes is decoded from its port sample on the instance of its block. -/
theorem decodeTableWord_eq_some {nbits w : Nat} {i : Instr} (h : decodeTableWord nbits w = some i) :
    decodePorts (tableTopology (w % 2 ^ nbits)) (tablePorts (w % 2 ^ nbits)) = i := by
  simp only [decodeTableWord, Option.ite_none_right_eq_some, Option.some_inj] at h
  exact h.2

/-- Settles O6: the first queued sample is decoded with the instance's strap and used up (`step_cons`); an empty queue presents the idle
sample, a NOP, and a table word presents its own port sample. -/
theorem stepRunsPresentedInstruction : Obligations.StepRunsPresentedInstruction := by
  intro s hl
  refine ⟨fun p ps hq => step_cons hl hq, fun i ps hi hq => ?_, fun hq => ?_, fun nbits w i hi => ?_⟩
  · rw [step_cons hl hq, decodePorts_toPorts hi]
  · have hidle : decodePorts s.topo Ports.idle = .nop := decodePorts_toPorts rfl
    rw [step, if_pos hl, presented_nil s hq, hidle, consume_nil hq]
    rfl
  · have hword : (s.withFetchWord nbits w).paramsLegal = true := hl
    rw [step_cons hword rfl, ← decodeTableWord_eq_some hi]
    rfl

/-- Settles O19: `cmd = 11` decodes to the reserved code if `rst` is clear and to RESET otherwise; that code is refused. -/
theorem reservedCodeIsRefused : Obligations.ReservedCodeIsRefused := by
  refine ⟨fun s => rfl, fun t a p b q => ⟨?_, ?_⟩, fun s p ps hl hq hrst hcmd => ?_⟩
  · rw [decodePorts_eq]
    rfl
  · rw [decodePorts_eq]
    rfl
  · have hreserved : decodePorts s.topo p = .reserved := by
      rw [decodePorts_eq, hrst, hcmd]
      rfl
    rw [step_cons hl hq, hreserved]
    rfl

/-! ### The output ports (R51) -/

theorem acc_mem_outputPorts {t : Topology} {c : Chan} (h : c ∈ t.channels) : .acc c ∈ outputPorts t := by
  simp [outputPorts, h]

theorem raw_mem_outputPorts {t : Topology} {o : OutputSpec} (h : o ∈ t.outputs) : .raw o.name ∈ outputPorts t := by
  simp only [outputPorts, List.mem_append, List.mem_flatMap]
  exact .inr ⟨o, h, by simp⟩

theorem smp_mem_outputPorts {t : Topology} {o : OutputSpec} (h : o ∈ t.outputs) : .smp o.name ∈ outputPorts t := by
  simp only [outputPorts, List.mem_append, List.mem_flatMap]
  exact .inr ⟨o, h, by simp⟩

theorem readPort_of_mem {s : State} {n : PortName} (h : n ∈ outputPorts s.topo) : s.readPort n = some (s.drive n) := if_pos h

/-- Settles O49: the port lists are those of R51's table, and a port of the list drives its register. -/
theorem outputPortsDriveRegisters : Obligations.OutputPortsDriveRegisters := by
  refine ⟨rfl, rfl, rfl, rfl, fun s => ⟨fun n hn => if_neg hn, readPort_of_mem (by simp [outputPorts]),
    readPort_of_mem (by simp [outputPorts]), fun c hc => readPort_of_mem (acc_mem_outputPorts hc), fun o ho => ⟨?_, ?_⟩⟩⟩
  · rw [readPort_of_mem (raw_mem_outputPorts ho), State.drive, BitVec.ofNat_toNat]
  · exact readPort_of_mem (smp_mem_outputPorts ho)

/-- Settles O50: the invariant holds `raw` and `smp` in the ranges of their types (R25 (a)), where `RES` bits carry them whole. -/
theorem validSamplesReadBackExactly : Obligations.ValidSamplesReadBackExactly := by
  rintro s o ⟨-, hwidths, -⟩ - ho
  obtain ⟨hraw, hlow, hhigh⟩ := hwidths o ho
  refine ⟨⟨_, readPort_of_mem (raw_mem_outputPorts ho), ?_⟩, ⟨_, readPort_of_mem (smp_mem_outputPorts ho), ?_⟩⟩
  · exact Nat.mod_eq_of_lt hraw
  · have hbits : s.res.bits ≠ 0 := by cases s.res <;> decide
    exact BitVec.toInt_ofInt_eq_self (Nat.pos_of_ne_zero hbits) hlow hhigh

/-! ### Shorthands and trace lines (R53, R54) -/

theorem convertChannel_of_next {K : Type} [Field K] [LinearOrder K] [FloorRing K] {ev : FloatEval K} {f phi i : HostArg K}
    {tw ph : Word} (htw : computeTuningWord ev f i = .next tw) (hph : computeInitialPhase ev phi = .next ph) :
    convertChannel ev f phi i = .next (tw, ph) := by
  rw [convertChannel, htw, hph]

/-- A BEGIN with one pair of operands reads `tw_a` and `ph_a` alone (R48). -/
theorem beginOf_congr {t : Topology} (ht : t ≠ .dual) {p q : Ports} (htw : p.twA = q.twA) (hph : p.phA = q.phA) :
    beginOf t p = beginOf t q := by
  cases t
  case dual => exact absurd rfl ht
  all_goals simp [beginOf, htw, hph]

/-- Settles O59: each channel's two conversions complete, and the BEGIN reads the operands its topology has. -/
theorem pseudoOperationsExpand : Obligations.PseudoOperationsExpand := by
  refine ⟨fun ev t f phi i tw ph ht htw hph p hp hq => ?_, fun ev f1 f2 phi1 phi2 i twA phA twB phB hA hpA hB hpB => ?_,
    fun t n => rfl, fun t => rfl⟩
  · rw [expandBeginF, if_neg ht, convertChannel_of_next htw hph]
    exact congrArg Host.Outcome.next (beginOf_congr ht hp.symm hq.symm)
  · rw [expandBeginF2, if_pos rfl, convertChannel_of_next hA hpA, convertChannel_of_next hB hpB]

/-- Settles O60: the lines by the cases of `TraceStep.instrs`; the four texts are concrete and are read by evaluation. -/
theorem traceLinesStandForCommands : Obligations.TraceLinesStandForCommands := by
  refine ⟨fun t => ⟨rfl, rfl⟩, fun w p => ⟨rfl, rfl, rfl, rfl⟩, fun w p v q => ⟨rfl, fun t ht => if_neg ht⟩, ?_, ?_, ?_, ?_⟩
  all_goals decide

end Sys2Proof.Machine
end

section
/-! SUPPORT. The host-side converter (40_fixed_point_converter.md): `round` and the reduction to a word (R62, R63), what the two conversions
answer, case by case (R61, R64 to R67), and the obligations of the scope. -/

namespace Sys2Proof.Machine

/-! ### The tie rule of `round` (R62) -/

theorem roundHalfAway_of_nonneg {x : ℝ} (hx : 0 ≤ x) : roundHalfAway x = ⌊x + 1 / 2⌋ := if_pos hx

theorem roundHalfAway_of_neg {x : ℝ} (hx : x < 0) : roundHalfAway x = ⌈x - 1 / 2⌉ := if_neg hx.not_ge

theorem le_roundHalfAway_iff {x : ℝ} (hx : 0 ≤ x) {n : Int} : n ≤ roundHalfAway x ↔ (n : ℝ) - 1 / 2 ≤ x := by
  rw [roundHalfAway_of_nonneg hx, Int.le_floor, sub_le_iff_le_add]

theorem roundHalfAway_nonneg {x : ℝ} (hx : 0 ≤ x) : 0 ≤ roundHalfAway x :=
  (le_roundHalfAway_iff hx).2 (by norm_num; linarith)

/-- The half-open interval of arguments that round to `n`: a tie belongs to the upper neighbour. -/
theorem roundHalfAway_eq_iff {x : ℝ} (hx : 0 ≤ x) {n : Int} :
    roundHalfAway x = n ↔ (n : ℝ) - 1 / 2 ≤ x ∧ x < (n : ℝ) + 1 / 2 := by
  rw [roundHalfAway_of_nonneg hx, Int.floor_eq_iff, sub_le_iff_le_add]
  exact and_congr_right fun _ => ⟨fun h => by linarith, fun h => by linarith⟩

/-- `round` commutes with the change of sign, so that the negative arguments follow from the others. -/
theorem roundHalfAway_neg (x : ℝ) : roundHalfAway (-x) = -roundHalfAway x := by
  rcases lt_trichotomy x 0 with hx | rfl | hx
  · rw [roundHalfAway_of_nonneg (neg_nonneg.2 hx.le), roundHalfAway_of_neg hx, ← Int.floor_neg]
    congr 1
    ring
  · norm_num [roundHalfAway]
  · rw [roundHalfAway_of_neg (neg_lt_zero.2 hx), roundHalfAway_of_nonneg hx.le, ← Int.ceil_neg]
    congr 1
    ring

/-- `round(x)` is at most 1/2 from `x`, and farther from zero than `x` where it is exactly 1/2 away. -/
theorem roundHalfAway_nearest (x : ℝ) :
    |(roundHalfAway x : ℝ) - x| ≤ 1 / 2 ∧ (|(roundHalfAway x : ℝ) - x| = 1 / 2 → |x| < |(roundHalfAway x : ℝ)|) := by
  wlog hx : 0 ≤ x generalizing x
  · have hneg := this (-x) (by linarith)
    rwa [roundHalfAway_neg, Int.cast_neg, abs_neg, abs_neg, ← neg_sub', abs_neg] at hneg
  · obtain ⟨hlow, hhigh⟩ := (roundHalfAway_eq_iff hx).1 rfl
    refine ⟨abs_le.2 ⟨by linarith, by linarith⟩, fun htie => ?_⟩
    have hup : (roundHalfAway x : ℝ) - x = 1 / 2 := by
      rcases (abs_eq (by norm_num)).1 htie with h | h
      · exact h
      · linarith
    rw [abs_of_nonneg hx]
    exact lt_of_lt_of_le (by linarith) (le_abs_self _)

/-! ### Reduction to a word (R63) -/

theorem toNat_wrapWord (v : Int) : ((wrapWord v).toNat : Int) = v % 2 ^ 32 := by
  rw [wrapWord, BitVec.toNat_ofInt]
  omega

theorem toNat_wrapWord_of_lt {v : Int} (h0 : 0 ≤ v) (h : v < 2 ^ 32) : ((wrapWord v).toNat : Int) = v := by
  rw [toNat_wrapWord, Int.emod_eq_of_lt h0 h]

/-! ### What the conversions answer (R61, R64 to R67) -/

section Answers

variable {ev : FloatEval ℝ} {f t x c : ℝ}

theorem computeTuningWord_of_nonneg (h : 0 ≤ f * t) :
    computeTuningWord ev (.finite f) (.finite t) = .next (wrapWord (roundHalfAway (ev.tuning f t))) := if_neg h.not_gt

theorem computeTuningWord_of_neg (h : f * t < 0) :
    computeTuningWord ev (.finite f) (.finite t) = .refused .converterArgument := if_pos h

theorem computeInitialPhase_of_outside (h : x ≤ 0 ∨ ev.twoPi < x) : computeInitialPhase ev (.finite x) = .next 0 := if_pos h

theorem computeInitialPhase_of_inside (h0 : 0 < x) (h : x ≤ ev.twoPi) :
    computeInitialPhase ev (.finite x) = .next (wrapWord ⌊ev.phaseUnits x⌋) :=
  if_neg (not_or.2 ⟨h0.not_ge, h.not_gt⟩)

theorem tuning_nonneg (h : 0 ≤ f * t) : 0 ≤ 2 ^ 32 * f * t := by
  rw [mul_assoc]
  positivity

/-- The word of an exact product that lies in the interval of arguments rounding to `n`. -/
theorem computeTuningWord_exact_eq (n : Int) (h : 0 ≤ f * t) (hlow : (n : ℝ) - 1 / 2 ≤ 2 ^ 32 * f * t)
    (hhigh : 2 ^ 32 * f * t < (n : ℝ) + 1 / 2) :
    computeTuningWord (FloatEval.exact c) (.finite f) (.finite t) = .next (wrapWord n) := by
  rw [computeTuningWord_of_nonneg h]
  exact congrArg (fun v => Host.Outcome.next (wrapWord v)) ((roundHalfAway_eq_iff (tuning_nonneg h)).2 ⟨hlow, hhigh⟩)

/-- The threshold of R63, with both sides divided by `2^32`. -/
theorem two_pow_le_roundHalfAway_tuning_iff (h : 0 ≤ f * t) :
    2 ^ 32 ≤ roundHalfAway (2 ^ 32 * f * t) ↔ 1 - 1 / 2 ^ 33 ≤ f * t := by
  rw [le_roundHalfAway_iff (tuning_nonneg h)]
  push_cast
  constructor <;> intro hle <;> linarith

/-- Below the threshold the word is the rounded product itself. -/
theorem toNat_wrapWord_roundHalfAway_tuning (h : 0 ≤ f * t) (hlt : f * t < 1 - 1 / 2 ^ 33) :
    ((wrapWord (roundHalfAway (2 ^ 32 * f * t))).toNat : Int) = roundHalfAway (2 ^ 32 * f * t) :=
  toNat_wrapWord_of_lt (roundHalfAway_nonneg (tuning_nonneg h))
    (not_le.1 fun hle => hlt.not_ge ((two_pow_le_roundHalfAway_tuning_iff h).1 hle))

/-- The word of a phase whose exact number of accumulator units has the floor `n`. -/
theorem computeInitialPhase_exact_eq (n : Int) (h0 : 0 < x) (h : x ≤ c) (hn : ⌊x * 2 ^ 32 / c⌋ = n) :
    computeInitialPhase (FloatEval.exact c) (.finite x) = .next (wrapWord n) := by
  rw [computeInitialPhase_of_inside h0 h]
  exact congrArg (fun v => Host.Outcome.next (wrapWord v)) hn

/-- A phase below one accumulator unit has the floor 0 (R65). -/
theorem computeInitialPhase_exact_of_lt_unit (h0 : 0 < x) (h : x < c / 2 ^ 32) :
    computeInitialPhase (FloatEval.exact c) (.finite x) = .next 0 := by
  have hlt : x * 2 ^ 32 < c := (lt_div_iff₀ (by positivity)).1 h
  have hc : 0 < c := lt_trans (by positivity) hlt
  have hunits : ⌊x * 2 ^ 32 / c⌋ = 0 := Int.floor_eq_zero_iff.2 ⟨by positivity, (div_lt_one hc).2 hlt⟩
  exact computeInitialPhase_exact_eq 0 h0 (by linarith) hunits

/-- Inside `(0, 2π)` the units lie below `2^32`, so the word is their floor without reduction (R65). -/
theorem toNat_wrapWord_floor_phaseUnits (h0 : 0 < x) (h : x < c) :
    ((wrapWord ⌊x * 2 ^ 32 / c⌋).toNat : Int) = ⌊x * 2 ^ 32 / c⌋ := by
  have hc : 0 < c := h0.trans h
  refine toNat_wrapWord_of_lt (by positivity) (Int.floor_lt.2 ?_)
  rw [div_lt_iff₀ hc]
  push_cast
  linarith

/-! ### Accuracy (R68) -/

theorem abs_toNat_tuningWord_sub_le (h : 0 ≤ f * t) (hlt : f * t < 1 - 1 / 2 ^ 33) :
    |((wrapWord (roundHalfAway (2 ^ 32 * f * t))).toNat : ℝ) - 2 ^ 32 * f * t| ≤ 1 / 2 := by
  have hword : ((wrapWord (roundHalfAway (2 ^ 32 * f * t))).toNat : ℝ) = roundHalfAway (2 ^ 32 * f * t) :=
    mod_cast toNat_wrapWord_roundHalfAway_tuning h hlt
  rw [hword]
  exact (roundHalfAway_nearest _).1

/-- An error of half a unit in the word is one of `1 / (2^33 T)` hertz. -/
theorem abs_frequency_sub_le (ht : 0 < t) {w : ℝ} (h : |w - 2 ^ 32 * f * t| ≤ 1 / 2) :
    |w / (2 ^ 32 * t) - f| ≤ 1 / (2 ^ 33 * t) := by
  have hscale : w / (2 ^ 32 * t) - f = (w - 2 ^ 32 * f * t) / (2 ^ 32 * t) := by field_simp
  calc |w / (2 ^ 32 * t) - f| = |w - 2 ^ 32 * f * t| / (2 ^ 32 * t) := by
        rw [hscale, abs_div, abs_of_pos (a := 2 ^ 32 * t) (by positivity)]
    _ ≤ 1 / 2 / (2 ^ 32 * t) := by gcongr
    _ = 1 / (2 ^ 33 * t) := by ring

theorem toNat_initialPhase_bounds (h0 : 0 < x) (h : x < c) :
    0 ≤ x * 2 ^ 32 / c - ((wrapWord ⌊x * 2 ^ 32 / c⌋).toNat : ℝ) ∧
    x * 2 ^ 32 / c - ((wrapWord ⌊x * 2 ^ 32 / c⌋).toNat : ℝ) < 1 := by
  have hword : ((wrapWord ⌊x * 2 ^ 32 / c⌋).toNat : ℝ) = ⌊x * 2 ^ 32 / c⌋ := mod_cast toNat_wrapWord_floor_phaseUnits h0 h
  rw [hword]
  exact ⟨Int.fract_nonneg _, Int.fract_lt_one _⟩

/-- A difference of phases in radians is that in accumulator units times the unit. -/
theorem phase_sub_eq_units_sub_mul (x : ℝ) (hc : c ≠ 0) (n : ℝ) :
    x - n * c / 2 ^ 32 = (x * 2 ^ 32 / c - n) * (c / 2 ^ 32) := by
  field_simp

end Answers

/-- R67 by the two arguments: a word where the product has a meaning, the refusal everywhere else. -/
theorem computeTuningWord_cases (ev : FloatEval ℝ) (f t : HostArg ℝ) :
    ((∃ x y : ℝ, f = .finite x ∧ t = .finite y ∧ 0 ≤ x * y) ∧ ∃ w, computeTuningWord ev f t = .next w) ∨
    ((¬ ∃ x y : ℝ, f = .finite x ∧ t = .finite y ∧ 0 ≤ x * y) ∧
      computeTuningWord ev f t = .refused .converterArgument) := by
  match f, t with
  | .finite x, .finite y =>
    rcases lt_or_ge (x * y) 0 with hneg | hnonneg
    · refine .inr ⟨?_, computeTuningWord_of_neg hneg⟩
      rintro ⟨_, _, ⟨⟩, ⟨⟩, h⟩
      exact hneg.not_ge h
    · exact .inl ⟨⟨x, y, rfl, rfl, hnonneg⟩, _, computeTuningWord_of_nonneg hnonneg⟩
  | .infinite, _ | .notANumber, _ | .finite _, .infinite | .finite _, .notANumber =>
    exact .inr ⟨by simp, rfl⟩

/-- R67 for the start phase: a word for every number, in the domain or outside it, and the refusal for the rest. -/
theorem computeInitialPhase_cases (ev : FloatEval ℝ) (phi : HostArg ℝ) :
    ((∃ x : ℝ, phi = .finite x) ∧ ∃ w, computeInitialPhase ev phi = .next w) ∨
    ((¬ ∃ x : ℝ, phi = .finite x) ∧ computeInitialPhase ev phi = .refused .converterArgument) := by
  match phi with
  | .finite x =>
    refine .inl ⟨⟨x, rfl⟩, ?_⟩
    by_cases h : x ≤ 0 ∨ ev.twoPi < x
    · exact ⟨_, computeInitialPhase_of_outside h⟩
    · obtain ⟨h0, h2⟩ := not_or.1 h
      exact ⟨_, computeInitialPhase_of_inside (not_le.1 h0) (not_lt.1 h2)⟩
  | .infinite | .notANumber => exact .inr ⟨by simp, rfl⟩

/-- An outcome that is a value where `P` holds and one refusal elsewhere is known by either from `P`. -/
theorem completes_iff_and_refused_iff {P : Prop} {α : Type} {o : Host.Outcome α Fault Refusal} {r : Refusal}
    (h : (P ∧ ∃ w, o = .next w) ∨ (¬ P ∧ o = .refused r)) : ((∃ w, o = .next w) ↔ P) ∧ (o = .refused r ↔ ¬ P) := by
  rcases h with ⟨hP, w, rfl⟩ | ⟨hP, rfl⟩ <;> simp [hP]

/-! ### The obligations -/

/-- Settles O53: the word of the rounded product, and for the worked number the interval that rounds to it. -/
theorem tuningWordIsRoundedProduct : Obligations.TuningWordIsRoundedProduct :=
  ⟨fun _ _ h => ⟨_, computeTuningWord_of_nonneg h, toNat_wrapWord _⟩,
    computeTuningWord_exact_eq 429496730 (by norm_num) (by norm_num) (by norm_num)⟩

/-- Settles O54: the nearest integer with its tie rule, and the examples by the interval each value of `round` has. -/
theorem roundTiesAwayFromZero : Obligations.RoundTiesAwayFromZero :=
  ⟨roundHalfAway_nearest, fun _ => roundHalfAway_of_nonneg,
    (roundHalfAway_eq_iff (by norm_num)).2 (by norm_num), (roundHalfAway_eq_iff (by norm_num)).2 (by norm_num),
    computeTuningWord_exact_eq 1 (by norm_num) (by norm_num) (by norm_num)⟩

/-- Settles O55: between the threshold and 1 the product rounds to `2^32`, whose word is 0. -/
theorem tuningWordWrapsSilently : Obligations.TuningWordWrapsSilently := by
  refine ⟨fun f t h => ⟨two_pow_le_roundHalfAway_tuning_iff h,
      ⟨_, computeTuningWord_of_nonneg h, toNat_wrapWord _, toNat_wrapWord_roundHalfAway_tuning h⟩, fun hlt hle => ?_⟩,
    computeTuningWord_exact_eq 4294967296 (by norm_num) (by norm_num) (by norm_num),
    computeTuningWord_exact_eq 4724464026 (by norm_num) (by norm_num) (by norm_num)⟩
  exact computeTuningWord_exact_eq (2 ^ 32) h (by push_cast; linarith) (by push_cast; linarith)

/-- Settles O56: the two ends and the examples by the floor of their accumulator units. -/
theorem initialPhaseIsFloorOrZero : Obligations.InitialPhaseIsFloorOrZero := by
  have hpi := Real.pi_pos
  have h2pi : 2 * Real.pi < 10 := by linarith [Real.pi_lt_four]
  have hfull : 2 * Real.pi * 2 ^ 32 / (2 * Real.pi) = 2 ^ 32 := mul_div_cancel_left₀ _ (by positivity)
  have hquarter : Real.pi / 2 * 2 ^ 32 / (2 * Real.pi) = 2 ^ 30 := by
    field_simp
  exact ⟨fun x hx => computeInitialPhase_of_outside hx,
    fun x h0 h => ⟨_, computeInitialPhase_of_inside h0 h.le, toNat_wrapWord_floor_phaseUnits h0 h⟩,
    computeInitialPhase_exact_eq (2 ^ 32) (by positivity) le_rfl (by rw [hfull]; norm_num),
    fun x h0 h => computeInitialPhase_exact_of_lt_unit h0 h,
    computeInitialPhase_exact_eq (2 ^ 30) (by positivity) (by linarith) (by rw [hquarter]; norm_num),
    computeInitialPhase_of_outside (.inr h2pi), computeInitialPhase_of_outside (.inl (by norm_num))⟩

/-- Settles O57: the word read as a real is the rounded product, or the floor of the units; the bounds in hertz and in radians are
those in units, scaled. -/
theorem conversionsAreAccurate : Obligations.ConversionsAreAccurate := by
  refine ⟨fun f t w h hlt hw => ?_, fun x w h0 h hw => ?_⟩
  · obtain rfl := Host.Outcome.next.inj ((computeTuningWord_of_nonneg h).symm.trans hw)
    exact ⟨abs_toNat_tuningWord_sub_le h hlt, fun ht => abs_frequency_sub_le ht (abs_toNat_tuningWord_sub_le h hlt)⟩
  · obtain rfl := Host.Outcome.next.inj ((computeInitialPhase_of_inside h0 h.le).symm.trans hw)
    obtain ⟨hlow, hhigh⟩ := toNat_initialPhase_bounds h0 h
    have hscale := phase_sub_eq_units_sub_mul x (h0.trans h).ne' ((wrapWord ⌊x * 2 ^ 32 / (2 * Real.pi)⌋).toNat : ℝ)
    have hunit : 0 < 2 * Real.pi / 2 ^ 32 := by positivity
    refine ⟨hlow, hhigh, ?_, ?_⟩
    · exact hscale ▸ mul_nonneg hlow hunit.le
    · exact hscale ▸ mul_lt_of_lt_one_left hunit hhigh

/-- Settles O58: each conversion answers with a word or with this refusal, by its argument. -/
theorem converterRefusesMeaninglessArguments : Obligations.ConverterRefusesMeaninglessArguments := by
  intro ev f t phi
  obtain ⟨htw, htwRefused⟩ := completes_iff_and_refused_iff (computeTuningWord_cases ev f t)
  obtain ⟨hph, hphRefused⟩ := completes_iff_and_refused_iff (computeInitialPhase_cases ev phi)
  exact ⟨htw, htwRefused, hph, hphRefused⟩

end Sys2Proof.Machine
end

section
/-! SUPPORT. The phase accumulator (41_phase_accumulator.md): a stream of ticks as an iterated UPDATE and the accumulator along it
(R72), its period (R73), when it wraps (R74) and how the index steps (R75), with the obligations of the scope. -/

namespace Sys2Proof.Machine

/-! ### Streams of ticks (R72) -/

/-- A steady stream from a running state is its ticks alone: UPDATE keeps `mode`, so none of them stops. -/
theorem execAll_of_steady {t : Topology} {is : List Instr} {s : State} (hm : s.mode = .running) (hs : steady t is) :
    execAll is s = .next ((State.ticked · t)^[ticks t is] s) := by
  induction is generalizing s with
  | nil => rfl
  | cons i is ih =>
    have hrest : steady t is := fun j hj => hs j (List.mem_cons_of_mem i hj)
    obtain rfl | rfl := hs i List.mem_cons_self
    · have hticks : ticks t (.nop :: is) = ticks t is := List.count_cons_of_ne (by cases t <;> nofun)
      rw [hticks]
      exact ih hm hrest
    · have hticks : ticks t (updateOf t :: is) = ticks t is + 1 := List.count_cons_self
      rw [execAll, exec_updateOf_of_running hm, hticks, Function.iterate_succ_apply]
      exact ih ((mode_ticked s t).trans hm) hrest

theorem execAll_replicate_updateOf {s : State} (hm : s.mode = .running) (t : Topology) (n : Nat) :
    execAll (List.replicate n (updateOf t)) s = .next ((State.ticked · t)^[n] s) := by
  have hs : steady t (List.replicate n (updateOf t)) := fun i hi => .inr (List.eq_of_mem_replicate hi)
  have hn : ticks t (List.replicate n (updateOf t)) = n := List.count_replicate_self
  rw [execAll_of_steady hm hs, hn]

theorem tw_iterate_ticked (s : State) (t : Topology) (c : Chan) (n : Nat) : ((State.ticked · t)^[n] s).tw c = s.tw c := by
  induction n with
  | zero => rfl
  | succ n ih => rw [Function.iterate_succ_apply', tw_ticked, ih]

theorem toNat_acc_iterate_ticked (s : State) {t : Topology} {c : Chan} (hc : c ∈ t.channels) (n : Nat) :
    (((State.ticked · t)^[n] s).acc c).toNat = ((s.acc c).toNat + n * (s.tw c).toNat) % 2 ^ 32 := by
  induction n with
  | zero => rw [Nat.zero_mul, Nat.add_zero, Nat.mod_eq_of_lt (s.acc c).isLt, Function.iterate_zero_apply]
  | succ n ih =>
    rw [Function.iterate_succ_apply', acc_ticked _ hc, tw_iterate_ticked, BitVec.toNat_add, ih, Nat.mod_add_mod, Nat.succ_mul,
      Nat.add_assoc]

/-- Settles O33: the stream is its ticks (`execAll_of_steady`), and each of them adds the tuning word. -/
theorem accumulatorIsLinear : Obligations.AccumulatorIsLinear := fun _ s hm hs =>
  ⟨_, execAll_of_steady hm hs, fun c hc => ⟨tw_iterate_ticked s s.topo c _, toNat_acc_iterate_ticked s hc _⟩⟩

/-! ### The period (R73) -/

/-- The linear law without the reduction, as an equation in the integers modulo `2^32`. -/
theorem acc_iterate_ticked_eq_iff (s : State) {t : Topology} {c : Chan} (hc : c ∈ t.channels) (n : Nat) (v : Word) :
    ((State.ticked · t)^[n] s).acc c = v ↔
      ((s.acc c).toNat : ZMod (2 ^ 32)) + n * ((s.tw c).toNat : ZMod (2 ^ 32)) = (v.toNat : ZMod (2 ^ 32)) := by
  rw [← BitVec.toNat_inj, toNat_acc_iterate_ticked s hc, ← Nat.cast_mul, ← Nat.cast_add, ZMod.natCast_eq_natCast_iff',
    Nat.mod_eq_of_lt v.isLt]

/-- `P(t)` is the additive order of the tuning word modulo `2^32`. -/
theorem phasePeriod_eq_addOrderOf (t : Word) : phasePeriod t = addOrderOf (t.toNat : ZMod (2 ^ 32)) :=
  (ZMod.addOrderOf_coe t.toNat (by decide)).symm

theorem acc_iterate_ticked_eq_self_iff (s : State) {t : Topology} {c : Chan} (hc : c ∈ t.channels) (n : Nat) :
    ((State.ticked · t)^[n] s).acc c = s.acc c ↔ phasePeriod (s.tw c) ∣ n := by
  rw [acc_iterate_ticked_eq_iff s hc, add_eq_left, ← nsmul_eq_mul, ← addOrderOf_dvd_iff_nsmul_eq_zero, phasePeriod_eq_addOrderOf]

/-- The period depends on the power of two in the tuning word alone. -/
theorem phasePeriod_of_two_pow_mul_odd {t : Word} {k m : Nat} (ht : t.toNat = 2 ^ k * m) (hm : m % 2 = 1) (hk : k ≤ 32) :
    phasePeriod t = 2 ^ (32 - k) := by
  have hodd : Nat.Coprime (2 ^ (32 - k)) m := (Nat.coprime_two_left.2 (Nat.odd_iff.2 hm)).pow_left _
  have hsplit : 2 ^ 32 = 2 ^ k * 2 ^ (32 - k) := (pow_mul_pow_sub 2 hk).symm
  rw [phasePeriod, ht, hsplit, Nat.gcd_mul_left, hodd, Nat.mul_one, Nat.mul_div_cancel_left _ (by positivity)]

theorem phasePeriod_of_odd {t : Word} (ht : t.toNat % 2 = 1) : phasePeriod t = 2 ^ 32 :=
  phasePeriod_of_two_pow_mul_odd (k := 0) (Nat.one_mul _).symm ht (by decide)

theorem phasePeriod_mul_toNat (t : Word) : phasePeriod t * t.toNat = 2 ^ 32 * (t.toNat / Nat.gcd (2 ^ 32) t.toNat) := by
  rw [phasePeriod, Nat.div_mul_right_comm (Nat.gcd_dvd_left _ _), Nat.mul_div_assoc _ (Nat.gcd_dvd_right _ _)]

/-- Adding a unit of the integers modulo `N` again and again meets every residue once in `N` times. -/
theorem exists_unique_multiple {N : Nat} [NeZero N] (u : (ZMod N)ˣ) (p v : ZMod N) :
    ∃ n < N, p + (n : ZMod N) * u = v ∧ ∀ m < N, p + (m : ZMod N) * u = v → m = n := by
  have hsolve (x : ZMod N) : p + x * u = v ↔ x = (v - p) * ↑u⁻¹ := by
    rw [← eq_sub_iff_add_eq', Units.eq_mul_inv_iff_mul_eq]
  refine ⟨((v - p) * ↑u⁻¹ : ZMod N).val, ZMod.val_lt _, (hsolve _).2 (ZMod.natCast_zmod_val _), fun m hm h => ?_⟩
  rw [← (hsolve _).1 h, ZMod.val_natCast_of_lt hm]

/-- Settles O34: the accumulator is back when the ticks times the tuning word vanish modulo `2^32`, and an odd tuning word is a
unit there. -/
theorem accumulatorIsPeriodic : Obligations.AccumulatorIsPeriodic := by
  refine ⟨fun n s t c hm hc h => ?_, by decide, fun t => phasePeriod_of_odd,
    fun t k m ht hm hk => phasePeriod_of_two_pow_mul_odd ht hm (hk.trans (by decide)), by decide, fun s c v hm hc hodd => ?_,
    phasePeriod_mul_toNat⟩
  · obtain rfl := Host.Outcome.next.inj ((execAll_replicate_updateOf hm s.topo n).symm.trans h)
    exact acc_iterate_ticked_eq_self_iff s hc n
  · have hreach (n : Nat) : (∃ t, execAll (List.replicate n (updateOf s.topo)) s = .next t ∧ t.acc c = v) ↔
        ((s.acc c).toNat : ZMod (2 ^ 32)) + n * ((s.tw c).toNat : ZMod (2 ^ 32)) = (v.toNat : ZMod (2 ^ 32)) := by
      simp only [execAll_replicate_updateOf hm, Host.Outcome.next.injEq, exists_eq_left', acc_iterate_ticked_eq_iff s hc]
    have hcoprime : Nat.Coprime (s.tw c).toNat (2 ^ 32) := (Nat.coprime_two_right.2 (Nat.odd_iff.2 hodd)).pow_right _
    simp only [hreach]
    exact exists_unique_multiple (ZMod.unitOfCoprime _ hcoprime) _ _

/-! ### When ADVANCE wraps (R74) -/

theorem acc_paAdvance (s : State) (c : Chan) : (s.paAdvance c).acc c = s.acc c + s.tw c := by
  rw [acc_eq, chan_paAdvance, if_pos rfl]

theorem wraps_iff (p t : Word) : wraps p t = true ↔ 2 ^ 32 ≤ p.toNat + t.toNat := decide_eq_true_iff

/-- The new value falls below the old exactly when the carry is lost, a tuning word of 0 aside. -/
theorem wraps_iff_add_lt (p t : Word) : wraps p t = true ↔ (p + t).toNat < p.toNat ∧ t ≠ 0 := by
  have hp := p.isLt
  have ht := t.isLt
  have hzero : t ≠ 0 ↔ t.toNat ≠ 0 := BitVec.toNat_inj.not.symm
  rw [wraps_iff, BitVec.toNat_add, hzero]
  omega

theorem wraps_iff_lt (p t : Word) : wraps p t = true ↔ 0xFFFFFFFF - t.toNat < p.toNat := by
  have ht := t.isLt
  rw [wraps_iff]
  omega

/-- One more tick goes round the circle once more exactly when it wraps. -/
theorem add_div_full_circle (a : Nat) (t : Word) :
    (a + t.toNat) / 2 ^ 32 = a / 2 ^ 32 + if wraps (BitVec.ofNat 32 a) t then 1 else 0 := by
  rw [Nat.add_div (by decide), Nat.div_eq_of_lt t.isLt, Nat.mod_eq_of_lt t.isLt, Nat.add_zero]
  simp only [wraps_iff, BitVec.toNat_ofNat]

theorem countP_wraps (p t : Word) (n : Nat) :
    (List.range n).countP (fun k => wraps (BitVec.ofNat 32 (p.toNat + k * t.toNat)) t) = (p.toNat + n * t.toNat) / 2 ^ 32 := by
  induction n with
  | zero => simp [Nat.div_eq_of_lt p.isLt]
  | succ n ih => rw [List.range_succ, List.countP_append, ih, List.countP_singleton, Nat.succ_mul, ← Nat.add_assoc, add_div_full_circle]

/-- Settles O35: the three forms of a wrap, and the count by induction on the ticks. -/
theorem advanceWrapsAtFullCircle : Obligations.AdvanceWrapsAtFullCircle := by
  refine ⟨fun s c => ?_, countP_wraps⟩
  rw [acc_paAdvance]
  exact ⟨wraps_iff _ _, wraps_iff_add_lt _ _, wraps_iff_lt _ _⟩

/-! ### How the index steps (R75) -/

theorem two_pow_shift_mul_tableLength (r : Resolution) : 2 ^ r.shift * r.tableLength = 2 ^ 32 := by cases r <;> decide

/-- The index of a sum: the sum of the indices and the carry out of the fraction fields, modulo `N`. -/
theorem indexFor_add (r : Resolution) (p t : Word) :
    indexFor r (p + t) = (indexFor r p + t.toNat / 2 ^ r.shift +
      if 2 ^ r.shift ≤ p.toNat % 2 ^ r.shift + t.toNat % 2 ^ r.shift then 1 else 0) % r.tableLength := by
  rw [indexFor_eq, indexFor_eq, BitVec.toNat_add, ← two_pow_shift_mul_tableLength r, Nat.mod_mul_right_div_self,
    Nat.add_div (by positivity)]

theorem indexFor_add_of_multiple (r : Resolution) (p : Word) {t : Word} (h : t.toNat % 2 ^ r.shift = 0) :
    indexFor r (p + t) = (indexFor r p + t.toNat / 2 ^ r.shift) % r.tableLength := by
  have hcarry : ¬ 2 ^ r.shift ≤ p.toNat % 2 ^ r.shift + t.toNat % 2 ^ r.shift := by
    rw [h]
    exact (Nat.mod_lt _ (by positivity)).not_ge
  rw [indexFor_add, if_neg hcarry, Nat.add_zero]

theorem indexFor_add_of_fraction_lt (r : Resolution) {p t : Word} (h : p.toNat % 2 ^ r.shift + t.toNat < 2 ^ r.shift) :
    indexFor r (p + t) = indexFor r p := by
  have ht : t.toNat < 2 ^ r.shift := lt_of_le_of_lt (Nat.le_add_left _ _) h
  rw [indexFor_add, Nat.mod_eq_of_lt ht, if_neg h.not_ge, Nat.div_eq_of_lt ht, Nat.add_zero,
    Nat.mod_eq_of_lt (indexFor_lt r p)]

/-- Settles O36: ADVANCE is an addition, whose index is `indexFor_add`; the two special cases have no carry. -/
theorem indexStepsByQuotientOrOneMore : Obligations.IndexStepsByQuotientOrOneMore := by
  unfold Obligations.IndexStepsByQuotientOrOneMore
  simp only [acc_paAdvance]
  exact ⟨fun s c => indexFor_add s.res _ _, by decide, by decide, fun s c => indexFor_add_of_multiple s.res _,
    fun s c => indexFor_add_of_fraction_lt s.res⟩

end Sys2Proof.Machine
end

section
/-! SUPPORT. The sine lookup engine (42_sine_lookup_engine.md): the block of phases that share a table entry (R81), offsets seen at
the index (R82) and the range of the signed sample (R79), with the obligations of the scope. -/

namespace Sys2Proof.Machine

/-! ### Quantisation (R81) -/

/-- The phases of index `i` are the block of `2^SHIFT` that starts at `i * 2^SHIFT`. -/
theorem indexFor_eq_iff (r : Resolution) (p : Word) (i : Nat) :
    indexFor r p = i ↔ i * 2 ^ r.shift ≤ p.toNat ∧ p.toNat < i * 2 ^ r.shift + 2 ^ r.shift := by
  have hpos : 0 < 2 ^ r.shift := by positivity
  rw [indexFor_eq, Nat.div_eq_iff hpos]
  omega

theorem indexFor_block (r : Resolution) (p : Word) :
    indexFor r p * 2 ^ r.shift ≤ p.toNat ∧ p.toNat < (indexFor r p + 1) * 2 ^ r.shift := by
  rw [Nat.succ_mul]
  exact (indexFor_eq_iff r p _).1 rfl

/-- The angle of a table position is that of the first phase of its block (R7): `N` blocks of `2^SHIFT` phases make the circle. -/
theorem table_angle_eq (r : Resolution) (i : Nat) :
    2 * Real.pi * (i : ℝ) / (r.tableLength : ℝ) = ((i * 2 ^ r.shift : Nat) : ℝ) * (2 * Real.pi) / 2 ^ 32 := by
  have hcircle : (2 : ℝ) ^ 32 = 2 ^ r.shift * (r.tableLength : ℝ) := by exact_mod_cast (two_pow_shift_mul_tableLength r).symm
  rw [hcircle]
  push_cast
  field_simp

/-- Settles O37: the block of an index (`indexFor_eq_iff`), and its two ends as angles. -/
theorem lookupQuantisesDownward : Obligations.LookupQuantisesDownward := by
  refine ⟨fun r p => ⟨indexFor_lt r p, indexFor_block r p⟩, fun r i p _ => indexFor_eq_iff r p i, by decide, by decide,
    fun r p => ?_⟩
  obtain ⟨hlow, hhigh⟩ := indexFor_block r p
  rw [← Nat.cast_add_one, table_angle_eq, table_angle_eq]
  constructor <;> gcongr

/-! ### Offsets and indices (R82) -/

/-- `OFF90` is a quarter of the table in both resolutions, with no fraction. -/
theorem off90_quarter_table (r : Resolution) :
    off90.toNat % 2 ^ r.shift = 0 ∧ off90.toNat / 2 ^ r.shift = r.tableLength / 4 := by
  cases r <;> decide

theorem indexFor_withOffset_off90 (r : Resolution) (p : Word) :
    indexFor r (withOffset p off90) = (indexFor r p + r.tableLength / 4) % r.tableLength := by
  obtain ⟨hfraction, hquarter⟩ := off90_quarter_table r
  rw [withOffset, indexFor_add_of_multiple r p hfraction, hquarter]

/-- Settles O38: an offset is an addition to the phase, whose index is `indexFor_add`; the constants are computed. -/
theorem offsetShiftsIndex : Obligations.OffsetShiftsIndex :=
  ⟨indexFor_add, fun r p _ => indexFor_add_of_multiple r p, indexFor_withOffset_off90, by decide, by decide, by decide⟩

/-! ### The signed sample (R79) -/

theorem two_pow_bits_sub_one (r : Resolution) : 2 ^ (r.bits - 1) = r.mid + 1 := by cases r <;> rfl

theorem two_pow_bits (r : Resolution) : 2 ^ r.bits = r.rawMax + 2 := by cases r <;> rfl

/-- The port carries a signed sample exactly (R44). -/
theorem toInt_portCode_toSigned {r : Resolution} {raw : Raw} (h : raw.toNat ≤ r.rawMax) :
    (portCode r (toSigned r raw)).toInt = toSigned r raw := by
  obtain ⟨-, hlow, hhigh⟩ := sample_in_range r h
  have hbits : 0 < r.bits := by cases r <;> decide
  exact BitVec.toInt_ofInt_eq_self hbits hlow hhigh

/-- The most negative code reads back as `-(MID + 1)`. -/
theorem toInt_eq_of_most_negative {r : Resolution} {b : BitVec r.bits} (h : b.toNat = 2 ^ (r.bits - 1)) :
    b.toInt = -((r.mid : Int) + 1) := by
  rw [BitVec.toInt_eq_toNat_cond, h, two_pow_bits_sub_one, two_pow_bits, Resolution.rawMax, if_neg (by omega)]
  omega

/-- Settles O39: `raw` is at most `2 * MID`, so less `MID` it lies in `-MID..MID`, where `RES` bits carry it and the most negative
code does not fall. -/
theorem signedSampleFitsItsPort : Obligations.SignedSampleFitsItsPort := by
  refine ⟨by decide, fun r raw h => ?_⟩
  have hport := toInt_portCode_toSigned h
  have hsigned : toSigned r raw = (raw.toNat : Int) - (r.mid : Int) := rfl
  have htop := two_pow_bits r
  have hmax : r.rawMax = 2 * r.mid := rfl
  refine ⟨hsigned, by omega, by omega, hport, fun w hw => (BitVec.toInt_signExtend_of_le hw).trans hport, fun hcode => ?_,
    by omega, by omega, by omega, by omega⟩
  have hnegative := toInt_eq_of_most_negative hcode
  omega

end Sys2Proof.Machine
end

section
/-! SUPPORT. The oscillators of one and of two channels (43_nco_dds.md): BEGIN, UPDATE and NOP of the block (R84 to R90), the generic
form (R91), the outputs along a stream of ticks (R86), and a DUAL instance seen one channel at a time (R39, R89), with the obligations
of the scope. -/

namespace Sys2Proof.Machine

/-! ### The commands of the block (R84 to R91) -/

/-- Settles O9: NOP answers the state it is given, and a sample with `rst` clear and `cmd = 00` selects it (`decodePorts_eq`). -/
theorem nopLeavesStateUnchanged : Obligations.NopLeavesStateUnchanged :=
  ⟨fun _ => rfl, fun t _ _ _ _ => decodePorts_eq t _⟩

/-- Settles O10: the BEGIN loads channel A and sets `mode`; the key is one of the opcode map. -/
theorem beginSingleLoadsChannel : Obligations.BeginSingleLoadsChannel := fun _ _ _ => ⟨rfl, fun _ _ => rfl⟩

/-- Settles O11: the BEGIN loads both channels and sets `mode`; the key is one of the opcode map. -/
theorem beginDualLoadsBothChannels : Obligations.BeginDualLoadsBothChannels := fun _ _ _ _ _ => ⟨rfl, rfl⟩

/-- An UPDATE of any topology has no meaning before a BEGIN (R106). -/
theorem exec_updateOf_of_unconfigured {s : State} (hm : s.mode = .unconfigured) (t : Topology) :
    exec (updateOf t) s = .fault .updateBeforeBegin := by
  rw [exec_updateOf, whenRunning_eq_fault]
  exact ⟨hm, rfl⟩

/-- The lookup of an output without an offset: the table entry of the accumulator, and that entry less `MID` (R76 to R80). -/
theorem sleLookup_of_offset_zero (s : State) (n : OutName) (c : Chan) :
    s.sleLookup ⟨n, c, 0⟩ =
      s.setOut n
        { raw := Memory.read s.res s.lut ((s.acc c).toNat / 2 ^ s.res.shift)
          smp := ((Memory.read s.res s.lut ((s.acc c).toNat / 2 ^ s.res.shift)).toNat : Int) - (s.res.mid : Int) } := by
  rw [State.sleLookup, withOffset_zero, rawAt_eq, toSigned]

/-- Settles O14: a running UPDATE is its topology's pattern, whose one lookup has no offset. -/
theorem updateSingleAdvancesAndSamples : Obligations.UpdateSingleAdvancesAndSamples := by
  intro s
  refine ⟨fun hm => (exec_updateOf_of_running hm .single).trans (congrArg Host.Outcome.next ?_),
    fun hm => exec_updateOf_of_unconfigured hm .single, fun _ _ _ _ => rfl⟩
  simp only [State.ticked, Topology.channels, Topology.outputs, List.foldl_cons, List.foldl_nil, sleLookup_of_offset_zero]
  rfl

/-- Settles O15: as for one channel, with two advances before two lookups. -/
theorem updateDualAdvancesAndSamplesBoth : Obligations.UpdateDualAdvancesAndSamplesBoth := by
  intro s
  refine ⟨fun hm => (exec_updateOf_of_running hm .dual).trans (congrArg Host.Outcome.next ?_),
    fun hm => exec_updateOf_of_unconfigured hm .dual, fun _ _ _ _ => rfl⟩
  simp only [State.ticked, Topology.channels, Topology.outputs, List.foldl_cons, List.foldl_nil, sleLookup_of_offset_zero]
  rfl

/-- Settles O22: the two patterns are the generic commands taken at the instance's own topology. -/
theorem genericFormAgrees : Obligations.GenericFormAgrees := fun s p =>
  ⟨exec_beginOf s.topo p s, exec_beginOf s.topo p s, exec_updateOf s.topo s⟩

/-! ### The outputs along a stream of ticks (R86) -/

/-- No number of ticks writes a parameter of the instance. -/
theorem iterate_ticked_sameParams (s : State) (t : Topology) (n : Nat) : s.sameParams ((State.ticked · t)^[n] s) := by
  induction n with
  | zero => exact ⟨rfl, rfl, rfl⟩
  | succ n ih =>
    rw [Function.iterate_succ_apply']
    exact sameParams_trans ih ⟨topo_ticked _ t, res_ticked _ t, lut_ticked _ t⟩

/-- Once it has ticked an instance has valid outputs. -/
theorem ovalid_iterate_ticked (s : State) (t : Topology) {n : Nat} (hn : 1 ≤ n) :
    ((State.ticked · t)^[n] s).ovalid = true := by
  obtain ⟨m, rfl⟩ := Nat.exists_eq_add_of_le' hn
  rw [Function.iterate_succ_apply', ovalid_ticked]

/-- What an output holds after the last of some ticks: the lookup at the accumulator as it then stands. -/
theorem out_iterate_ticked (s : State) {t : Topology} {o : OutputSpec} (ho : o ∈ t.outputs) {n : Nat} (hn : 1 ≤ n) :
    ((State.ticked · t)^[n] s).out o.name =
      { raw := s.rawAt (withOffset (((State.ticked · t)^[n] s).acc o.chan) o.offset)
        smp := toSigned s.res (s.rawAt (withOffset (((State.ticked · t)^[n] s).acc o.chan) o.offset)) } := by
  obtain ⟨m, rfl⟩ := Nat.exists_eq_add_of_le' hn
  obtain ⟨-, hres, hlut⟩ := iterate_ticked_sameParams s t m
  rw [Function.iterate_succ_apply', out_ticked _ ho, rawAt_eq, rawAt_eq, hres, hlut]

/-- Settles O43: the BEGIN leaves the instance running with the operands loaded, the stream is its ticks, and the last of them has looked
every output up. -/
theorem outputSequenceAfterBegin : Obligations.OutputSequenceAfterBegin := by
  intro s p is hsteady hn
  have hload {c : Chan} (hc : c ∈ s.topo.channels) :
      (s.begun s.topo p).acc c = (p.operandsOf c).2 ∧ (s.begun s.topo p).tw c = (p.operandsOf c).1 := by
    rw [acc_eq, tw_eq, chan_begun, if_pos hc]
    exact ⟨rfl, rfl⟩
  have hacc {c : Chan} (hc : c ∈ s.topo.channels) :
      (((State.ticked · s.topo)^[ticks s.topo is] (s.begun s.topo p)).acc c).toNat =
        ((p.operandsOf c).2.toNat + ticks s.topo is * (p.operandsOf c).1.toNat) % 2 ^ 32 := by
    rw [toNat_acc_iterate_ticked _ hc, (hload hc).1, (hload hc).2]
  refine ⟨_, ?_, ovalid_iterate_ticked _ _ hn, fun c hc => hacc hc, fun o ho => ?_⟩
  · rw [execAll, exec_beginOf]
    exact execAll_of_steady (mode_begun s s.topo p) hsteady
  · rw [raw_eq, smp_eq, out_iterate_ticked _ ho hn]
    refine ⟨?_, by rw [toSigned, res_begun]⟩
    rw [rawAt_eq, toNat_withOffset, hacc (chan_mem_channels ho), Nat.mod_add_mod, res_begun, lut_begun, State.sampleAt]

/-- Settles O44: an output after its ticks depends on its channel's accumulator alone (`out_iterate_ticked`), and that is back after
every multiple of the period. -/
theorem samplesArePeriodic : Obligations.SamplesArePeriodic := by
  intro s n k o hm ho hn
  refine ⟨_, _, execAll_replicate_updateOf hm _ _, execAll_replicate_updateOf hm _ _, ?_⟩
  have hback : ((State.ticked · s.topo)^[n + k * phasePeriod (s.tw o.chan)] s).acc o.chan =
      ((State.ticked · s.topo)^[n] s).acc o.chan := by
    rw [Nat.add_comm, Function.iterate_add_apply, acc_iterate_ticked_eq_self_iff _ (chan_mem_channels ho), tw_iterate_ticked]
    exact Nat.dvd_mul_left _ _
  rw [out_iterate_ticked s ho (hn.trans (Nat.le_add_right _ _)), out_iterate_ticked s ho hn, hback]

/-! ### The commands of one block, and a channel's part of them -/

/-- Every command an instance can receive is RESET, NOP, its own BEGIN, its own UPDATE, or the reserved code (R46). -/
theorem instr_cases_of_wellFormed {i : Instr} {t : Topology} (h : i.wellFormed t = true) :
    i = .reset ∨ i = .nop ∨ (∃ p, i = beginOf t p) ∨ i = updateOf t ∨ i = .reserved := by
  obtain hr | hn | ⟨u, p, rfl⟩ | ⟨u, rfl⟩ | hr := instr_cases i
  · exact .inl hr
  · exact .inr (.inl hn)
  · obtain rfl := wellFormed_beginOf.1 h
    exact .inr (.inr (.inl ⟨p, rfl⟩))
  · obtain rfl := wellFormed_updateOf.1 h
    exact .inr (.inr (.inr (.inl rfl)))
  · exact .inr (.inr (.inr (.inr hr)))

/-- The port sample of channel `c`'s part of a BEGIN: its operands on the ports of channel A. -/
def portsFor (c : Chan) (p : Ports) : Ports := { p with twA := (p.operandsOf c).1, phA := (p.operandsOf c).2 }

theorem dualToSingle_beginOf (c : Chan) (p : Ports) :
    dualToSingle c (beginOf .dual p) = beginOf .single (portsFor c p) := by
  cases c <;> rfl

theorem dualToSingle_updateOf (c : Chan) : dualToSingle c (updateOf .dual) = updateOf .single := rfl

theorem operandsOf_portsFor (p : Ports) (c : Chan) : (portsFor c p).operandsOf .A = p.operandsOf c := rfl

/-! ### A DUAL instance and a SINGLE one in step (R89) -/

theorem exists_dual_output (c : Chan) : ∃ o ∈ Topology.dual.outputs, o.name = dualOutput c ∧ o.chan = c ∧ o.offset = 0 := by
  cases c <;> simp [Topology.outputs, dualOutput]

theorem mem_channels_dual (c : Chan) : c ∈ Topology.dual.channels := by cases c <;> decide

/-- The output of a DUAL channel after an UPDATE. -/
theorem out_ticked_dual (d : State) (c : Chan) :
    (d.ticked .dual).out (dualOutput c) =
      { raw := d.rawAt (d.acc c + d.tw c), smp := toSigned d.res (d.rawAt (d.acc c + d.tw c)) } := by
  obtain ⟨o, ho, hname, hchan, hoff⟩ := exists_dual_output c
  rw [← hname, out_ticked d ho, hchan, hoff, withOffset_zero, acc_ticked d (mem_channels_dual c)]

/-- The output of a SINGLE instance after an UPDATE. -/
theorem outa_ticked_single (s : State) :
    (s.ticked .single).outa =
      { raw := s.rawAt (s.acc .A + s.tw .A), smp := toSigned s.res (s.rawAt (s.acc .A + s.tw .A)) } := by
  have ho : (⟨.a, .A, 0⟩ : OutputSpec) ∈ Topology.single.outputs := by decide
  rw [← out_a, out_ticked s ho, withOffset_zero, acc_ticked s (by decide)]

/-- RESET leaves both without values to compare. -/
theorem standsAs_reset {c : Chan} {d s : State} (h : standsAs c d s) :
    standsAs c d.unspecify.setUnconfigured.clearOvalid s.unspecify.setUnconfigured.clearOvalid := by
  obtain ⟨hd, hs, hres, hlut, -, -, -, -⟩ := h
  simp [standsAs, hd, hs, hres, hlut]

/-- BEGIN loads the one channel of the SINGLE instance with the operands of channel `c`. -/
theorem standsAs_begun {c : Chan} {d s : State} (h : standsAs c d s) (p : Ports) :
    standsAs c (d.begun .dual p) (s.begun .single (portsFor c p)) := by
  obtain ⟨hd, hs, hres, hlut, -, hov, -, hout⟩ := h
  refine ⟨by simpa, by simpa, by simpa, by simpa, by simp, by simpa, fun _ => ?_, fun hv => ?_⟩
  · rw [← chan_A, chan_begun, chan_begun, if_pos (by decide), if_pos (mem_channels_dual c), operandsOf_portsFor]
  · rw [← out_a, out_begun, out_begun, out_a]
    exact hout (by simpa using hv)

/-- UPDATE advances and looks up the same phase in the same table. -/
theorem standsAs_ticked {c : Chan} {d s : State} (h : standsAs c d s) (hm : d.mode = .running) :
    standsAs c (d.ticked .dual) (s.ticked .single) := by
  obtain ⟨hd, hs, hres, hlut, hmode, -, hchan, -⟩ := h
  have hA : s.chan .A = d.chan c := hchan hm
  refine ⟨by simpa, by simpa, by simpa, by simpa, by simpa, by simp, fun _ => ?_, fun _ => ?_⟩
  · rw [← chan_A, chan_ticked, chan_ticked, if_pos (by decide), if_pos (mem_channels_dual c), tw_eq, acc_eq, tw_eq, acc_eq, hA]
  · rw [outa_ticked_single, out_ticked_dual, tw_eq, acc_eq, tw_eq, acc_eq, hA, rawAt_eq, rawAt_eq, hres, hlut]

/-- What a SINGLE instance that stands as channel `c` has to answer where the DUAL instance answers: the same stop, or a state that stands
as the channel of the DUAL instance's. -/
def outcomeStandsAs (c : Chan) :
    Host.Outcome State Fault Refusal → Host.Outcome State Fault Refusal → Prop
  | .next d, y    => ∃ s, y = .next s ∧ standsAs c d s
  | .fault e, y   => y = .fault e
  | .refused e, y => y = .refused e

/-- One command: the SINGLE instance answers it as the DUAL instance does. -/
theorem exec_standsAs {c : Chan} {d s : State} {i : Instr} (h : standsAs c d s) (hi : i.wellFormed .dual = true) :
    outcomeStandsAs c (exec i d) (exec (dualToSingle c i) s) := by
  obtain rfl | rfl | ⟨p, rfl⟩ | rfl | rfl := instr_cases_of_wellFormed hi
  · exact ⟨_, rfl, standsAs_reset h⟩
  · exact ⟨_, rfl, h⟩
  · rw [dualToSingle_beginOf, exec_beginOf, exec_beginOf]
    exact ⟨_, rfl, standsAs_begun h p⟩
  · have hmode : s.mode = d.mode := by
      obtain ⟨-, -, -, -, hmode, -⟩ := h
      exact hmode
    rw [dualToSingle_updateOf]
    cases hm : d.mode with
    | unconfigured =>
      rw [exec_updateOf_of_unconfigured hm, exec_updateOf_of_unconfigured (hmode.trans hm)]
      rfl
    | running =>
      rw [exec_updateOf_of_running hm, exec_updateOf_of_running (hmode.trans hm)]
      exact ⟨_, rfl, standsAs_ticked h hm⟩
  · rfl

theorem execAll_standsAs {c : Chan} {is : List Instr} {d s : State} (h : standsAs c d s)
    (hwf : ∀ i ∈ is, i.wellFormed .dual = true) :
    outcomeStandsAs c (execAll is d) (execAll (is.map (dualToSingle c)) s) := by
  induction is generalizing d s with
  | nil => exact ⟨s, rfl, h⟩
  | cons i is ih =>
    have hstep := exec_standsAs h (hwf i List.mem_cons_self)
    rw [List.map_cons, execAll, execAll]
    cases hd : exec i d with
    | next d' =>
      rw [hd] at hstep
      obtain ⟨s', hs, h'⟩ := hstep
      rw [hs]
      exact ih h' fun j hj => hwf j (List.mem_cons_of_mem i hj)
    | fault e =>
      rw [hd] at hstep
      rw [show exec (dualToSingle c i) s = .fault e from hstep]
      rfl
    | refused e =>
      rw [hd] at hstep
      rw [show exec (dualToSingle c i) s = .refused e from hstep]
      rfl

/-- Settles O46: the relation `standsAs` is kept command by command (`exec_standsAs`), hence along the stream. -/
theorem dualBehavesAsTwoSingles : Obligations.DualBehavesAsTwoSingles := by
  intro c is d s h hwf
  have hsim := execAll_standsAs h hwf
  refine ⟨fun d' hd => ?_, fun e hd => ?_, fun e hd => ?_⟩
  all_goals
    rw [hd] at hsim
    exact hsim

/-! ### Two DUAL instances that agree on a channel (R39, R89) -/

/-- Two DUAL instances agree on channel `c`: the same parameters, `mode` and draw counter (log entry 2), and the same registers of the
channel and its output. -/
structure AgreeOn (c : Chan) (s s' : State) : Prop where
  dual   : s.topo = .dual
  params : s.sameParams s'
  mode   : s'.mode = s.mode
  draws  : s'.draws = s.draws
  chan   : s'.chan c = s.chan c
  out    : s'.out (dualOutput c) = s.out (dualOutput c)

theorem dualOutput_mem_names (c : Chan) : dualOutput c ∈ Topology.dual.outputs.map OutputSpec.name := by cases c <;> decide

theorem agreeOn_reset {c : Chan} {s s' : State} (h : AgreeOn c s s') :
    AgreeOn c s.unspecify.setUnconfigured.clearOvalid s'.unspecify.setUnconfigured.clearOvalid := by
  obtain ⟨hd, ⟨htopo, hres, hlut⟩, -, hdraws, -, -⟩ := h
  refine ⟨by simpa, ⟨by simpa, by simpa, by simpa⟩, by simp, by simp [hdraws], ?_, ?_⟩
  · simp [chan_unspecify, htopo, hd, mem_channels_dual, hdraws]
  · simp only [out_clearOvalid, out_setUnconfigured, out_unspecify, htopo, hd, dualOutput_mem_names, if_true, hres, hdraws]

theorem agreeOn_begun {c : Chan} {s s' : State} (h : AgreeOn c s s') {p q : Ports} (hpq : p.operandsOf c = q.operandsOf c) :
    AgreeOn c (s.begun .dual p) (s'.begun .dual q) := by
  obtain ⟨hd, ⟨htopo, hres, hlut⟩, -, hdraws, -, hout⟩ := h
  refine ⟨by simpa, ⟨by simpa, by simpa, by simpa⟩, by simp, by simpa, ?_, by simpa⟩
  rw [chan_begun, chan_begun, if_pos (mem_channels_dual c), if_pos (mem_channels_dual c), hpq]

theorem agreeOn_ticked {c : Chan} {s s' : State} (h : AgreeOn c s s') : AgreeOn c (s.ticked .dual) (s'.ticked .dual) := by
  obtain ⟨hd, ⟨htopo, hres, hlut⟩, hmode, hdraws, hchan, -⟩ := h
  refine ⟨by simpa, ⟨by simpa, by simpa, by simpa⟩, by simpa, by simpa, ?_, ?_⟩
  · rw [chan_ticked, chan_ticked, tw_eq, acc_eq, tw_eq, acc_eq, hchan]
  · rw [out_ticked_dual, out_ticked_dual, tw_eq, acc_eq, tw_eq, acc_eq, hchan, rawAt_eq, rawAt_eq, hres, hlut]

/-- Two commands of a DUAL instance that are the same command but for the operands of the other channel than `c`. -/
inductive SamePart (c : Chan) : Instr → Instr → Prop
  | reset : SamePart c .reset .reset
  | nop : SamePart c .nop .nop
  | begins {p q : Ports} (h : p.operandsOf c = q.operandsOf c) : SamePart c (beginOf .dual p) (beginOf .dual q)
  | updates : SamePart c (updateOf .dual) (updateOf .dual)
  | reserved : SamePart c .reserved .reserved

/-- The part of a command that channel `c` receives decides the command up to the operands of the other channel. -/
theorem samePart_of_dualToSingle_eq {c : Chan} {i j : Instr} (hi : i.wellFormed .dual = true)
    (hj : j.wellFormed .dual = true) (h : dualToSingle c i = dualToSingle c j) : SamePart c i j := by
  obtain rfl | rfl | ⟨p, rfl⟩ | rfl | rfl := instr_cases_of_wellFormed hi <;>
    obtain rfl | rfl | ⟨q, rfl⟩ | rfl | rfl := instr_cases_of_wellFormed hj
  case inl.inl => exact .reset
  case inr.inl.inr.inl => exact .nop
  case inr.inr.inl.inr.inr.inl =>
    rw [dualToSingle_beginOf, dualToSingle_beginOf] at h
    obtain ⟨htw, hph⟩ := Instr.begin1ch.inj h
    exact .begins (Prod.ext htw hph)
  case inr.inr.inr.inl.inr.inr.inr.inl => exact .updates
  case inr.inr.inr.inr.inr.inr.inr.inr => exact .reserved
  -- The parts of two different rows are two different rows.
  all_goals cases c <;> cases h

/-- One command each, with the same part for channel `c`: the instances still agree on it. -/
theorem exec_agreeOn {c : Chan} {s s' t t' : State} {i j : Instr} (h : AgreeOn c s s') (hij : SamePart c i j)
    (ht : exec i s = .next t) (ht' : exec j s' = .next t') : AgreeOn c t t' := by
  cases hij with
  | reset =>
    obtain rfl := Host.Outcome.next.inj ht
    obtain rfl := Host.Outcome.next.inj ht'
    exact agreeOn_reset h
  | nop =>
    obtain rfl := Host.Outcome.next.inj ht
    obtain rfl := Host.Outcome.next.inj ht'
    exact h
  | begins hpq =>
    rw [exec_beginOf] at ht ht'
    obtain rfl := Host.Outcome.next.inj ht
    obtain rfl := Host.Outcome.next.inj ht'
    exact agreeOn_begun h hpq
  | updates =>
    rw [exec_updateOf, whenRunning_eq_next] at ht ht'
    obtain ⟨-, rfl⟩ := ht
    obtain ⟨-, rfl⟩ := ht'
    exact agreeOn_ticked h
  | reserved => exact absurd ht nofun

/-- A stream completes exactly when its first command does and the rest completes from there. -/
theorem execAll_cons_eq_next {i : Instr} {is : List Instr} {s u : State} :
    execAll (i :: is) s = .next u ↔ ∃ t, exec i s = .next t ∧ execAll is t = .next u := by
  cases h : exec i s <;> simp [execAll, h]

theorem execAll_agreeOn {c : Chan} {s s' t t' : State} {is js : List Instr} (h : AgreeOn c s s')
    (hij : List.Forall₂ (SamePart c) is js) (ht : execAll is s = .next t) (ht' : execAll js s' = .next t') :
    AgreeOn c t t' := by
  induction hij generalizing s s' with
  | nil =>
    obtain rfl := Host.Outcome.next.inj ht
    obtain rfl := Host.Outcome.next.inj ht'
    exact h
  | cons hfirst _ ih =>
    obtain ⟨u, hu, hrest⟩ := execAll_cons_eq_next.1 ht
    obtain ⟨u', hu', hrest'⟩ := execAll_cons_eq_next.1 ht'
    exact ih (exec_agreeOn h hfirst hu hu') hrest hrest'

/-- Streams with the same part for channel `c` are, command by command, the same but for the other channel's operands. -/
theorem forall₂_samePart {c : Chan} {is js : List Instr} (hwf : ∀ i ∈ is ++ js, i.wellFormed .dual = true)
    (h : is.map (dualToSingle c) = js.map (dualToSingle c)) : List.Forall₂ (SamePart c) is js := by
  induction is generalizing js with
  | nil =>
    obtain rfl := List.map_eq_nil_iff.1 h.symm
    exact .nil
  | cons i is ih =>
    obtain ⟨j, js, rfl, hfirst, hrest⟩ := List.map_eq_cons_iff.1 h.symm
    have htail : ∀ k ∈ is ++ js, k.wellFormed .dual = true := fun k hk => by
      obtain hk | hk := List.mem_append.1 hk <;> exact hwf k (by simp [hk])
    exact .cons (samePart_of_dualToSingle_eq (hwf i (by simp)) (hwf j (by simp)) hfirst.symm) (ih htail hrest.symm)

/-- Settles O45: agreement on a channel is kept by any two commands with the same part for it (`exec_agreeOn`), hence along the two
streams. -/
theorem dualChannelsDoNotInfluenceEachOther : Obligations.DualChannelsDoNotInfluenceEachOther := by
  intro c is js s s' t t' hd hparams hmode hdraws hchan hout hwf hij ht ht'
  have hagree := execAll_agreeOn ⟨hd, hparams, hmode, hdraws, hchan, hout⟩ (forall₂_samePart hwf hij) ht ht'
  exact ⟨hagree.chan, hagree.out⟩

end Sys2Proof.Machine
end

section
/-! SUPPORT. The quadrature generator (44_quadrature_generator.md): BEGIN and UPDATE of the block (R92, R93), the quarter-table lead of
Q over I (R94), and an IQ instance next to a DUAL one whose second phase is a quarter circle ahead (R96), with the obligations of the
scope. -/

namespace Sys2Proof.Machine

/-! ### The commands of the block (R92, R93) -/

/-- Settles O12: the BEGIN loads channel A and sets `mode`; the key is one of the opcode map. -/
theorem beginIqLoadsChannel : Obligations.BeginIqLoadsChannel := fun _ _ _ => ⟨rfl, fun _ _ => rfl⟩

/-- A lookup writes one output: the table entry of the accumulator plus the offset, and that entry less `MID` (R76 to R80). -/
theorem sleLookup_eq_setOut (s : State) (o : OutputSpec) :
    s.sleLookup o =
      s.setOut o.name
        { raw := Memory.read s.res s.lut ((withOffset (s.acc o.chan) o.offset).toNat / 2 ^ s.res.shift)
          smp := ((Memory.read s.res s.lut ((withOffset (s.acc o.chan) o.offset).toNat / 2 ^ s.res.shift)).toNat : Int) -
            (s.res.mid : Int) } := by
  rw [State.sleLookup, rawAt_eq, toSigned]

/-- Settles O16: a running UPDATE is its topology's pattern, one lookup at the advanced accumulator and one `OFF90` after it. -/
theorem updateIqAdvancesAndSamples : Obligations.UpdateIqAdvancesAndSamples := by
  intro s
  refine ⟨fun hm => (exec_updateOf_of_running hm .iq).trans (congrArg Host.Outcome.next ?_),
    fun hm => exec_updateOf_of_unconfigured hm .iq, fun _ _ _ _ => rfl⟩
  simp only [State.ticked, Topology.channels, Topology.outputs, List.foldl_cons, List.foldl_nil, sleLookup_eq_setOut,
    withOffset_zero, withOffset_off90]
  rfl

/-! ### Quadrature lock (R94) -/

theorem I_mem_outputs_iq : ⟨.I, .A, 0⟩ ∈ Topology.iq.outputs := by decide

theorem Q_mem_outputs_iq : ⟨.Q, .A, off90⟩ ∈ Topology.iq.outputs := by decide

/-- The raw sample of an output after an UPDATE, in terms of the state the UPDATE leaves. -/
theorem raw_ticked (s : State) {t : Topology} {o : OutputSpec} (ho : o ∈ t.outputs) :
    (s.ticked t).raw o.name =
      (s.ticked t).sampleAt (indexFor (s.ticked t).res (withOffset ((s.ticked t).acc o.chan) o.offset)) := by
  rw [raw_eq, out_ticked s ho, sampleAt_congr (res_ticked s t) (lut_ticked s t), res_ticked, State.rawAt]

/-- Settles O40: Q is looked up `OFF90` after I, and `OFF90` is a quarter of the table with no fraction
(`indexFor_withOffset_off90`). -/
theorem quadratureIsLocked : Obligations.QuadratureIsLocked := by
  intro s hm
  refine ⟨s.ticked .iq, exec_updateOf_of_running hm .iq, ?_⟩
  have hlead := indexFor_withOffset_off90 (s.ticked .iq).res ((s.ticked .iq).acc .A)
  have hrawQ := raw_ticked s Q_mem_outputs_iq
  rw [← withOffset_off90, ← indexFor_eq]
  exact ⟨by rw [raw_ticked s I_mem_outputs_iq, withOffset_zero], hrawQ, hlead, by rw [hrawQ, hlead]⟩

/-! ### An IQ instance and a shifted DUAL one in step (R96) -/

/-- The two UPDATEs advance by the same word, so the second phase stays a quarter circle ahead. -/
theorem loadedAsIq_ticked {s d : State} (h : loadedAsIq s d) : loadedAsIq (s.ticked .iq) (d.ticked .dual) := by
  obtain ⟨hs, hd, hres, hlut, hsm, hdm, htwA, haccA, htwB, haccB⟩ := h
  have hacc : (s.ticked .iq).acc .A = s.acc .A + s.tw .A := acc_ticked s (by decide)
  refine ⟨by simpa, by simpa, by simpa, by simpa, by simpa, by simpa, by simpa, ?_, by simpa, ?_⟩
  · rw [acc_ticked d (mem_channels_dual .A), hacc, haccA, htwA]
  · rw [acc_ticked d (mem_channels_dual .B), hacc, haccB, htwB, add_right_comm]

/-- The two UPDATEs look the same phases up in the same table. -/
theorem out_ticked_of_loadedAsIq {s d : State} (h : loadedAsIq s d) :
    (d.ticked .dual).out .a = (s.ticked .iq).out .I ∧ (d.ticked .dual).out .b = (s.ticked .iq).out .Q := by
  obtain ⟨-, -, -, -, -, -, -, haccA, -, haccB⟩ := loadedAsIq_ticked h
  obtain ⟨-, -, hres, hlut, -, -, -, -, -, -⟩ := h
  have ha : (⟨.a, .A, 0⟩ : OutputSpec) ∈ Topology.dual.outputs := by decide
  have hb : (⟨.b, .B, 0⟩ : OutputSpec) ∈ Topology.dual.outputs := by decide
  constructor
  · rw [out_ticked d ha, out_ticked s I_mem_outputs_iq, haccA, rawAt_eq, rawAt_eq, hres, hlut]
  · rw [out_ticked d hb, out_ticked s Q_mem_outputs_iq, haccB, withOffset_zero, withOffset, rawAt_eq, rawAt_eq, hres, hlut]

theorem loadedAsIq_iterate_ticked {s d : State} (h : loadedAsIq s d) (n : Nat) :
    loadedAsIq ((State.ticked · .iq)^[n] s) ((State.ticked · .dual)^[n] d) := by
  induction n with
  | zero => exact h
  | succ n ih =>
    rw [Function.iterate_succ_apply', Function.iterate_succ_apply']
    exact loadedAsIq_ticked ih

/-- Settles O47: both streams are their ticks, every tick keeps the two loaded alike, and the last one fills the outputs
(`out_ticked_of_loadedAsIq`). -/
theorem iqSamplesMatchShiftedDual : Obligations.IqSamplesMatchShiftedDual := by
  intro n s d h
  have hn := loadedAsIq_iterate_ticked h n
  obtain ⟨-, -, -, -, hsm, hdm, -, -, -, -⟩ := h
  obtain ⟨houtA, houtB⟩ := out_ticked_of_loadedAsIq hn
  refine ⟨_, _, execAll_replicate_updateOf hsm .iq (n + 1), execAll_replicate_updateOf hdm .dual (n + 1), ?_⟩
  rw [Function.iterate_succ_apply', Function.iterate_succ_apply']
  exact ⟨houtA, houtB, loadedAsIq_ticked hn⟩

end Sys2Proof.Machine
end

section
/-! SUPPORT. The three-phase generator (45_three_phase_generator.md): BEGIN and UPDATE of the block (R97, R98), how far the V and W
indices lie after U's (R99), and the relations among the three phases (R100), with the obligations of the scope. -/

namespace Sys2Proof.Machine

/-! ### The commands of the block (R97, R98) -/

/-- Settles O13: the BEGIN loads channel A and sets `mode`; the key is one of the opcode map. -/
theorem beginThreePhaseLoadsChannel : Obligations.BeginThreePhaseLoadsChannel := fun _ _ _ => ⟨rfl, fun _ _ => rfl⟩

/-- Settles O17: a running UPDATE is its topology's pattern, three lookups at the one advanced accumulator, each with its own offset. -/
theorem updateThreePhaseAdvancesAndSamples : Obligations.UpdateThreePhaseAdvancesAndSamples := by
  intro s
  refine ⟨fun hm => (exec_updateOf_of_running hm .threePhase).trans (congrArg Host.Outcome.next ?_),
    fun hm => exec_updateOf_of_unconfigured hm .threePhase, fun _ _ _ _ => rfl⟩
  simp only [State.ticked, Topology.channels, Topology.outputs, List.foldl_cons, List.foldl_nil, sleLookup_eq_setOut,
    withOffset_zero, withOffset_off120, withOffset_off240]
  rfl

/-! ### The three phases (R100) -/

/-- The two offsets make up the full circle, so each is the other backwards. -/
theorem off120_add_off240 : off120 + off240 = 0 := by decide

theorem off240_eq_neg_off120 : off240 = -off120 := eq_neg_of_add_eq_zero_right off120_add_off240

theorem off120_eq_neg_off240 : off120 = -off240 := eq_neg_of_add_eq_zero_left off120_add_off240

/-- An offset is the distance it moves a phase by. -/
theorem withOffset_sub_self (p off : Word) : withOffset p off - p = off := add_sub_cancel_left p off

/-- Two phases of one accumulator are as far apart as their offsets. -/
theorem withOffset_sub_withOffset (p a b : Word) : withOffset p a - withOffset p b = a - b := add_sub_add_left_eq_sub a b p

theorem self_sub_withOffset (p off : Word) : p - withOffset p off = -off := sub_add_cancel_left p off

theorem withOffset_neg (p off : Word) : withOffset p (-off) = p - off := (sub_eq_add_neg p off).symm

/-- Settles O42: the relations hold between the offsets, whatever the phase they are added to. -/
theorem threePhasesSumToFullCircle : Obligations.ThreePhasesSumToFullCircle := by
  refine ⟨by decide, fun p => ⟨?_, ?_, withOffset_sub_self p off120, ?_, ?_⟩, by decide⟩
  · rw [off120_eq_neg_off240, withOffset_neg]
  · rw [off240_eq_neg_off120, withOffset_neg]
  · rw [withOffset_sub_withOffset]
    decide
  · rw [self_sub_withOffset]
    decide

/-! ### Index offsets (R99) -/

/-- The index of a phase plus an offset lies the offset's quotient after the index of the phase, and one more from the fraction on at
which the two fractions carry. -/
theorem indexFor_withOffset_sub (r : Resolution) (p off : Word) {k threshold : Nat} (hk : off.toNat / 2 ^ r.shift = k)
    (hcarry : threshold + off.toNat % 2 ^ r.shift = 2 ^ r.shift) (hlt : k + 1 < r.tableLength) :
    ((indexFor r (withOffset p off) : Int) - indexFor r p) % (r.tableLength : Int) =
      if fractionOf r p < threshold then (k : Int) else ((k + 1 : Nat) : Int) := by
  have hindex : indexFor r (withOffset p off) =
      (indexFor r p + if fractionOf r p < threshold then k else k + 1) % r.tableLength := by
    rw [withOffset, indexFor_add, hk, fractionOf]
    congr 1
    split <;> split <;> omega
  rw [hindex, Int.natCast_mod, Int.emod_sub_emod, Nat.cast_add, add_sub_cancel_left]
  split <;> exact Int.emod_eq_of_lt (by omega) (by omega)

theorem U_mem_outputs_threePhase : ⟨.U, .A, 0⟩ ∈ Topology.threePhase.outputs := by decide

theorem V_mem_outputs_threePhase : ⟨.V, .A, off120⟩ ∈ Topology.threePhase.outputs := by decide

theorem W_mem_outputs_threePhase : ⟨.W, .A, off240⟩ ∈ Topology.threePhase.outputs := by decide

/-- Settles O41: the three lookups share the accumulator the UPDATE leaves (`raw_ticked`), and the indices are as far apart as
`indexFor_withOffset_sub` says of each offset in each resolution. -/
theorem threePhaseIndexOffsets : Obligations.ThreePhaseIndexOffsets := by
  intro s hm
  refine ⟨s.ticked .threePhase, exec_updateOf_of_running hm .threePhase, ?_⟩
  have hrawU := raw_ticked s U_mem_outputs_threePhase
  rw [withOffset_zero] at hrawU
  refine ⟨hrawU, raw_ticked s V_mem_outputs_threePhase, raw_ticked s W_mem_outputs_threePhase, withOffset_sub_self _ off120,
    withOffset_sub_self _ off240, fun hres => ?_, fun hres => ?_⟩
  · rw [hres]
    exact ⟨indexFor_withOffset_sub .res8 _ off120 (by decide) (by decide) (by decide),
      indexFor_withOffset_sub .res8 _ off240 (by decide) (by decide) (by decide)⟩
  · rw [hres]
    exact ⟨indexFor_withOffset_sub .res10 _ off120 (by decide) (by decide) (by decide),
      indexFor_withOffset_sub .res10 _ off240 (by decide) (by decide) (by decide)⟩

end Sys2Proof.Machine
end

section
/-! SUPPORT. The two ways a run stops (60_exceptions.md): which commands complete, fault or are refused (R103, R106, R107), and what a
step adds to them, with the obligations of the scope. -/

namespace Sys2Proof.Machine

/-! ### What a command answers -/

theorem exec_reset (s : State) : exec .reset s = .next s.unspecify.setUnconfigured.clearOvalid := rfl
theorem exec_nop (s : State) : exec .nop s = .next s := rfl
theorem exec_reserved (s : State) : exec .reserved s = .refused .reservedCommand := rfl

@[simp] theorem beginOf_ne_reserved (t : Topology) (p : Ports) : beginOf t p ≠ .reserved := by cases t <;> nofun
@[simp] theorem updateOf_ne_reserved (t : Topology) : updateOf t ≠ .reserved := by cases t <;> nofun

/-- A command faults only as an UPDATE before a BEGIN (R106). -/
theorem exec_eq_fault_iff (i : Instr) (s : State) (e : Fault) :
    exec i s = .fault e ↔ e = .updateBeforeBegin ∧ i.isUpdate = true ∧ s.mode = .unconfigured := by
  obtain rfl | rfl | ⟨t, p, rfl⟩ | ⟨t, rfl⟩ | rfl := instr_cases i
  · simp [exec_reset, Instr.isUpdate]
  · simp [exec_nop, Instr.isUpdate]
  · simp [exec_beginOf]
  · simp [exec_updateOf, whenRunning_eq_fault, and_comm]
  · simp [exec_reserved, Instr.isUpdate]

/-- A command is refused only as the reserved code (R49). -/
theorem exec_eq_refused_iff (i : Instr) (s : State) (e : Refusal) :
    exec i s = .refused e ↔ e = .reservedCommand ∧ i = .reserved := by
  obtain rfl | rfl | ⟨t, p, rfl⟩ | ⟨t, rfl⟩ | rfl := instr_cases i
  · simp [exec_reset]
  · simp [exec_nop]
  · simp [exec_beginOf]
  · simp [exec_updateOf, whenRunning_ne_refused]
  · simp [exec_reserved, eq_comm]

/-- A command completes unless it is the reserved code or an UPDATE outside RUNNING (R103). -/
theorem exec_completes_iff (i : Instr) (s : State) :
    (∃ t, exec i s = .next t) ↔ i ≠ .reserved ∧ (i.isUpdate = true → s.mode = .running) := by
  obtain rfl | rfl | ⟨t, p, rfl⟩ | ⟨t, rfl⟩ | rfl := instr_cases i
  · simp [exec_reset, Instr.isUpdate]
  · simp [exec_nop, Instr.isUpdate]
  · simp [exec_beginOf]
  · simp [exec_updateOf, whenRunning_eq_next]
  · simp [exec_reserved]

/-- Settles O20: an UPDATE is not the reserved code, so it faults or completes by `mode` alone. -/
theorem updateBeforeBeginFaults : Obligations.UpdateBeforeBeginFaults := by
  intro i s hi
  obtain ⟨t, rfl⟩ := exists_updateOf hi
  exact ⟨by simp [exec_eq_fault_iff], by simp [exec_completes_iff]⟩

/-! ### What a step answers -/

/-- Settles O21: a step of a legal instance is its decoded command, which reads `mode` as the instance holds it and never raises
`illegalParameter`; a step of any other state is that refusal. -/
theorem nothingElseStopsARun : Obligations.NothingElseStopsARun := by
  refine ⟨fun i s => ⟨exec_eq_fault_iff i s, exec_eq_refused_iff i s, exec_completes_iff i s⟩, fun s => ?_⟩
  obtain ⟨hl, hstep⟩ | ⟨hl, hstep⟩ := step_cases s
  · simp [hstep, hl, exec_completes_iff, exec_eq_refused_iff]
  · simp [hstep, hl]

end Sys2Proof.Machine
end

section
/-! SUPPORT. Reset and the hazards of the stream (70_reset_and_hazards.md): what one RESET and a run of RESETs leave (R117, R118), and the
outputs between a reconfiguration and the next UPDATE (R129), with the obligations of the scope. -/

namespace Sys2Proof.Machine

/-! ### One RESET (R117) -/

theorem decodePorts_of_rst {p : Ports} (hrst : p.rst = true) (t : Topology) : decodePorts t p = .reset := by
  rw [decodePorts_eq, if_pos hrst]

/-- Settles O18: RESET answers the drawn state with both flags cleared, and the draw gives each register a value of its type
(`widthsHold_reset`). -/
theorem resetClearsFlagsAndKeepsParameters : Obligations.ResetClearsFlagsAndKeepsParameters :=
  ⟨fun s => ⟨_, exec_reset s, by simp, by simp, ⟨by simp, by simp, by simp⟩, widthsHold_reset s⟩,
    fun t _ hrst => decodePorts_of_rst hrst t, rfl, rfl⟩

/-- Settles O25: clearing the flags touches no register, so each one is as the draw leaves it (`chan_unspecify`, `out_unspecify`). -/
theorem resetDrawsOnlyOwnRegisters : Obligations.ResetDrawsOnlyOwnRegisters := by
  intro s t h
  obtain rfl := Host.Outcome.next.inj ((exec_reset s).symm.trans h)
  refine ⟨⟨by simp, by simp, by simp⟩, sampleAt_congr (by simp) (by simp), by simp, by simp, fun c hc => ?_, fun c hc => ?_,
    fun o ho => ?_, fun o ho => ?_⟩
  · simp [chan_unspecify, hc]
  · simp [chan_unspecify, hc]
  · rw [out_clearOvalid, out_setUnconfigured, out_unspecify, if_pos ho]
  · rw [out_clearOvalid, out_setUnconfigured, out_unspecify, if_neg ho]

/-! ### A run of RESETs (R118, R109) -/

/-- `t` is `s` after RESETs: the flags are cleared, and the parameters and the registers the instance does not have are those of `s`.
The draws of two RESETs differ, so this is all that two of them share. -/
structure IsResetOf (t s : State) : Prop where
  mode   : t.mode = .unconfigured
  ovalid : t.ovalid = false
  params : s.sameParams t
  chan   : ∀ c, c ∉ s.topo.channels → t.chan c = s.chan c
  out    : ∀ o, o ∉ s.topo.outputs.map OutputSpec.name → t.out o = s.out o

theorem sameParams_symm {s t : State} (h : s.sameParams t) : t.sameParams s := by
  obtain ⟨htopo, hres, hlut⟩ := h
  exact ⟨htopo.symm, hres.symm, hlut.symm⟩

theorem isResetOf_of_exec_reset {s t : State} (h : exec .reset s = .next t) : IsResetOf t s := by
  obtain ⟨hparams, -, -, -, -, hchan, -, hout⟩ := resetDrawsOnlyOwnRegisters s t h
  obtain rfl := Host.Outcome.next.inj ((exec_reset s).symm.trans h)
  exact ⟨by simp, by simp, hparams, hchan, hout⟩

/-- RESETs after RESETs are RESETs: the instance, and so the set of registers it does not have, stays the same. -/
theorem IsResetOf.trans {s t u : State} (hu : IsResetOf u t) (ht : IsResetOf t s) : IsResetOf u s := by
  obtain ⟨htopo, -, -⟩ := ht.params
  refine ⟨hu.mode, hu.ovalid, sameParams_trans ht.params hu.params, fun c hc => ?_, fun o ho => ?_⟩
  · exact (hu.chan c (htopo ▸ hc)).trans (ht.chan c hc)
  · exact (hu.out o (htopo ▸ ho)).trans (ht.out o ho)

/-- Any positive number of RESETs completes, each starting where the one before ended. -/
theorem execAll_replicate_reset (n : Nat) (s : State) :
    ∃ u, execAll (List.replicate (n + 1) .reset) s = .next u ∧ IsResetOf u s := by
  induction n generalizing s with
  | zero => exact ⟨_, rfl, isResetOf_of_exec_reset (exec_reset s)⟩
  | succ n ih =>
    obtain ⟨u, hrest, hu⟩ := ih s.unspecify.setUnconfigured.clearOvalid
    exact ⟨u, hrest, hu.trans (isResetOf_of_exec_reset (exec_reset s))⟩

/-- Settles O8: `rst` decides the decoding alone (`decodePorts_of_rst`), and one RESET and `n + 1` of them both leave a state that
`IsResetOf` compares with the one they started from. -/
theorem resetDominatesAndRepeats : Obligations.ResetDominatesAndRepeats := by
  refine ⟨fun s p ps hl hq hrst => ?_, fun n s => ?_⟩
  · rw [step_cons hl hq, decodePorts_of_rst hrst]
  · have ht : IsResetOf s.unspecify.setUnconfigured.clearOvalid s := isResetOf_of_exec_reset (exec_reset s)
    obtain ⟨u, hrun, hu⟩ := execAll_replicate_reset n s
    exact ⟨_, u, exec_reset s, hrun, hu.mode.trans ht.mode.symm, hu.ovalid.trans ht.ovalid.symm,
      sameParams_trans (sameParams_symm ht.params) hu.params, fun c hc => (hu.chan c hc).trans (ht.chan c hc).symm,
      fun o ho => (hu.out o ho).trans (ht.out o ho).symm⟩

/-! ### Outputs after a reconfiguration (R129) -/

theorem execAll_replicate_nop (n : Nat) (s : State) : execAll (List.replicate n .nop) s = .next s := by
  induction n with
  | zero => rfl
  | succ n ih => exact ih

/-- Settles O32: BEGIN writes the accumulators and no output (`chan_begun`, `out_begun`), the NOPs write nothing, and `ovalid` stands as
the UPDATE set it. -/
theorem outputsStaleAfterReconfiguration : Obligations.OutputsStaleAfterReconfiguration := by
  intro s t p n h
  rw [exec_updateOf, whenRunning_eq_next] at h
  obtain ⟨-, rfl⟩ := h
  refine ⟨_, execAll_cons_eq_next.2 ⟨_, exec_beginOf s.topo p _, execAll_replicate_nop n _⟩, fun c hc => ?_, by simp, by simp⟩
  rw [acc_eq, chan_begun, if_pos hc]

end Sys2Proof.Machine
end
